-- ==== Sys2Proof/Word.lean ====
section
/-! DEFINITION. The word types of the block and the widths that name them (00_scope.md R8, R11; 10_state.md R13). -/

namespace Sys2Proof

/-- A byte: 8 bits, bit 7 the most significant (R11). -/
abbrev Byte := BitVec 8

/-- A time value in milliseconds: `TIME_W` = 32 bits, unsigned (R8). -/
abbrev Time := BitVec 32

/-- The width of `cursor`, `total_len` and `buf_idx`: `CUR_W` = 4 bits (R8). -/
abbrev Cur := BitVec 4

/-- A command word: `CMD_W` = 11 bits (R8, R54). -/
abbrev CmdWord := BitVec 11

end Sys2Proof
end

