-- ==== Sys2Proof/Config.lean ====
section
/-! DEFINITION. What is fixed when the block is built (00_scope.md R6, R7, R8; 10_state.md R22), and the free values the spec
leaves open (93_implementation_defined.md U1 to U4). -/

namespace Sys2Proof

/-- The constants of R6 and R7, and the widths of R8, as one record ("A model takes them as fields of its configuration"). -/
structure Params where
  /-- `SENTINEL`: the value of framing bytes A and B (R6). -/
  sentinel : Byte
  /-- `HDR`: bytes before the payload (R6). -/
  hdr : Nat
  /-- `OVERHEAD`: non-payload bytes in a frame (R6). -/
  overhead : Nat
  /-- `MAX_FRAME`: cells of the buffer, the largest total frame length accepted (R7). -/
  maxFrame : Nat
  /-- `TIMEOUT_MS`: the watchdog's threshold in milliseconds (R7). -/
  timeoutMs : Nat
  /-- `TIME_W` (R8). -/
  timeW : Nat
  /-- `CMD_W` (R8). -/
  cmdW : Nat
  /-- `CUR_W` (R8). -/
  curW : Nat
  deriving DecidableEq, Repr

/-- `MAX_PAYLOAD` is not independent: `MAX_FRAME - OVERHEAD` (R7). -/
def Params.maxPayload (p : Params) : Nat := p.maxFrame - p.overhead

/-- This hardware's values (R6, R7, R8); log entry 11. -/
def Config.params : Params where
  sentinel := 0xAA#8
  hdr := 4
  overhead := 5
  maxFrame := 15
  timeoutMs := 1000
  timeW := 32
  cmdW := 11
  curW := 4

/-- `SENTINEL` (R6). -/
def Config.sentinel : Byte := Config.params.sentinel
/-- `HDR` (R6). -/
def Config.hdr : Nat := Config.params.hdr
/-- `OVERHEAD` (R6). -/
def Config.overhead : Nat := Config.params.overhead
/-- `MAX_FRAME` (R7). -/
def Config.maxFrame : Nat := Config.params.maxFrame
/-- `MAX_PAYLOAD` (R7). -/
def Config.maxPayload : Nat := Config.params.maxPayload
/-- `TIMEOUT_MS` (R7). -/
def Config.timeoutMs : Nat := Config.params.timeoutMs

/-- FREE VALUE (log entry 2): what the block's own rules read in step number `step` from buffer cell `i` that holds no value
(U1). No run meets it (R25, I6). -/
opaque Config.freeCell (step i : Nat) : Byte

/-- FREE VALUE (log entry 3): what `DRAIN` reads in step number `step` from `dest` when it holds no value (U1). No run meets it. -/
opaque Config.freeDest (step : Nat) : Byte

/-- FREE VALUE (log entry 8): what `out_dest` shows at look number `look` after step number `step`, `dest` holding no value
(U1, R94: "any value", a fresh draw at each look). -/
opaque Config.freeOutDest (step look : Nat) : Byte

/-- FREE VALUE (log entry 8): what `buf_data` shows for `buf_idx = i` when the cell holds no value or does not exist (U1, U3, R96). -/
opaque Config.freeBufData (step look i : Nat) : Byte

/-- FREE VALUE (log entry 8): what `out_csum` shows when a cell it reads holds no value or does not exist (U4, R98). -/
opaque Config.freeOutCsum (step look : Nat) : Byte

end Sys2Proof
end

