-- ==== Sys2Proof/Syntax.lean ====
section
/-! DEFINITION. The commands of the block, one constructor per row of opcode_table.json (30_encoding.md R55). -/

namespace Sys2Proof

/-- One command. `ACCEPT` carries its `data` operand; the `data` field of every other row is ignored by the block (R58) and is
no operand (R55, R56). The `now` operand of `ACCEPT` and `POLL` is "not part of the command word" (R56): it is the step's input. -/
inductive Instr where
  /-- `NOP`, op 000 (R90). -/
  | nop
  /-- `ACCEPT`, op 001 (R67). -/
  | accept (data : Byte)
  /-- `POLL`, op 010 (R80). -/
  | poll
  /-- `RESET`, op 011 (R87). -/
  | reset
  /-- `DRAIN`, op 100 (R88, R89). -/
  | drain
  /-- reserved, op 101 (R91). -/
  | reserved101
  /-- reserved, op 110 (R91). -/
  | reserved110
  /-- reserved, op 111 (R91). -/
  | reserved111
  deriving DecidableEq, Repr

end Sys2Proof
end

