-- ==== Sys2Proof/Machine/State.lean ====
section
/-! DEFINITION. The state of the block (10_state.md R13: seven items, "There is no other state"), apart from it the inputs of the steps
to come and the report of the last step (R27), the machine right after reset (R24), and the reasons a step can stop. -/

namespace Sys2Proof.Machine

/-- The accumulation buffer `BUF` as the list of the cells that hold a value, addresses strictly rising; a cell that is not listed
holds no value (R14, R24; log entry 2). -/
abbrev Memory := List Host.Cell

/-- The event labels (60_exceptions.md R111). -/
inductive Event where
  /-- `None`, code 0: nothing to report. -/
  | noEvent
  /-- `FramingError`, code 1. -/
  | framingError
  /-- `CapacityViolation`, code 2. -/
  | capacityViolation
  /-- `ChecksumFailure`, code 3. -/
  | checksumFailure
  /-- `Timeout`, code 4. -/
  | timeout
  /-- `BackpressureDrop`, code 5. -/
  | backpressureDrop
  /-- `FrameComplete`, code 6. -/
  | frameComplete
  deriving DecidableEq, Repr

/-- What a `DRAIN` of a complete frame delivers (42_reset_drain_nop.md R88). -/
structure Frame where
  dest : Byte
  len : Byte
  payload : List Byte
  deriving DecidableEq, Repr

/-- The inputs of one step (30_encoding.md R48): the reset input, the command word and the time input, sampled together (R10). -/
structure StepInput where
  rst : Bool
  cmd : CmdWord
  now : Time
  deriving DecidableEq, Repr

/-- The state record of the block: the seven items of R13, and nothing else ("There is no other state"). What R27 keeps out of the
state record (the constants, `cmd`, `now`, `buf_idx`, the event label, the result of `DRAIN`) is not in it. -/
structure Block where
  /-- `BUF` (R14). -/
  buf : Memory
  /-- `cursor` (R15). -/
  cursor : Cur
  /-- `total_len`, 0 while unknown (R16). -/
  totalLen : Cur
  /-- `payload_len` (R17). -/
  payloadLen : Byte
  /-- `dest`; `none`: it holds no value (R18, U1; log entry 3). -/
  dest : Option Byte
  /-- `complete` (R19). -/
  complete : Bool
  /-- `ts`, 0 meaning not set (R20). -/
  ts : Time
  deriving DecidableEq, Repr

/-- What stands around the block, none of it the block's state (R27): the inputs the environment presents, what a step reports, and the
step counter (log entries 1, 4, 5, 6). That it is no state of the block is `Obligations.BlockIsTheWholeState`. -/
structure Surroundings where
  /-- The value of the `now` input in the step being executed (R10, R56; log entry 4). -/
  now : Time
  /-- The inputs the environment has still to present, first the next (R9, R60; log entry 1). -/
  pending : List StepInput
  /-- The label of the last step (R112; log entry 5). -/
  event : Event
  /-- The result of the last step, when it was a `DRAIN` (R88, R89; log entry 5). -/
  result : Option Frame
  /-- How many steps have been taken: what free values are drawn from; no rule of the block reads it (log entry 6). -/
  stepCount : Nat
  deriving DecidableEq, Repr

/-- The block and its surroundings: what `step`, a function of one argument that answers its like, needs (log entries 1, 5). -/
structure State extends Block, Surroundings
  deriving DecidableEq, Repr

/-- The power-on state (R24, R130): `cursor`, `total_len`, `payload_len`, `complete` and `ts` are 0, every cell of `BUF` and `dest`
hold no value. Nothing is presented and nothing has been reported (log entries 1, 4, 5, 6). -/
def State.reset : State where
  buf := []
  cursor := 0#4
  totalLen := 0#4
  payloadLen := 0#8
  dest := none
  complete := false
  ts := 0#32
  now := 0#32
  pending := []
  event := .noEvent
  result := none
  stepCount := 0

/-- Why the machine stops with a fault. -/
inductive Fault where
  /-- The command would touch buffer cell `i`, and `BUF` has no such cell (00_scope.md R12, 20_memory.md R32: cells `0 .. MAX_FRAME - 1`).
  Raised by `ACCEPT` and `DRAIN`, only in states outside the invariant of R25, which no run reaches (R39). Safe (log entry 7). -/
  | bufferIndex (i : Nat)
  deriving DecidableEq, Repr

/-- Why the model refuses an instruction. -/
inductive Refusal where
  /-- The instruction has no meaning yet; raised by `exec`'s arm alone. Safe. No arm raises it: every row is modelled. -/
  | notModelled (mnemonic : String)
  deriving DecidableEq, Repr

end Sys2Proof.Machine
end

