-- ==== Sys2Proof/Machine/Ops.lean ====
section
/-! DEFINITION. The named operations over the buffer and the registers, and taking an error event (00_scope.md R12). -/

namespace Sys2Proof.Machine

/-- What a meaning answers. -/
abbrev Result := Host.Outcome State Fault Refusal

/-- Go on with `f` from the next state; a stop stays a stop. -/
def andThen (o : Result) (f : State → Result) : Result :=
  match o with
  | .next s => f s
  | .fault r => .fault r
  | .refused r => .refused r

/-! ## The buffer -/

/-- `BUF` has a cell `i`: `0 <= i < MAX_FRAME` (R12, R32). -/
def inBuf (i : Nat) : Bool := decide (i < Config.maxFrame)

/-- The byte a cell holds, `none` when it holds no value (R14). -/
def Memory.read : Memory → Nat → Option Byte
  | [], _ => none
  | c :: m, i => if c.1 = i then some c.2 else Memory.read m i

/-- Write one byte, keeping the addresses strictly rising. -/
def Memory.write : Memory → Nat → Byte → Memory
  | [], i, v => [(i, v)]
  | c :: m, i, v =>
    if i < c.1 then (i, v) :: c :: m
    else if i = c.1 then (i, v) :: m
    else c :: Memory.write m i v

/-- The canonical form of `BUF`: addresses strictly rising, each the address of a cell that exists. (An entry never equals what an
unlisted cell reads as: that one holds no value.) -/
abbrev Memory.wf (m : Memory) : Prop :=
  m.Pairwise (fun a b => a.1 < b.1) ∧ ∀ c ∈ m, c.1 < Config.maxFrame

/-- `MemRead(i, 1)` by the block's own rules (R12). A cell that holds no value gives a free value (U1; log entry 2). -/
def readCell (s : State) (i : Nat) : Byte := (s.buf.read i).getD (Config.freeCell s.stepCount i)

/-- `dest` as `DRAIN` reads it (R88). When it holds no value, a free value (U1; log entry 3). -/
def readDest (s : State) : Byte := s.dest.getD (Config.freeDest s.stepCount)

/-- `MemWrite(i, 1, v)` (R12), for an `i` that exists. -/
def writeBuf (i : Nat) (v : Byte) (s : State) : State := { s with buf := s.buf.write i v }

/-! ## The registers -/

/-- `ts <- now` (R69). -/
def stampTime (s : State) : State := { s with ts := s.now }

/-- `cursor <- cursor + 1`, over the naturals (R101); where it is used `cursor < MAX_FRAME`, so that it fits `CUR_W` bits. -/
def advanceCursor (s : State) : State := { s with cursor := BitVec.ofNat 4 (s.cursor.toNat + 1) }

/-- `payload_len <- data; total_len <- zext(data) + OVERHEAD` (R71, R51). -/
def setLengths (data : Byte) (s : State) : State :=
  { s with payloadLen := data, totalLen := BitVec.ofNat 4 (data.toNat + Config.overhead) }

/-- `dest <- data` (R72). -/
def setDest (data : Byte) (s : State) : State := { s with dest := some data }

/-- `complete <- 1; ts <- 0` (R74). -/
def markComplete (s : State) : State := { s with complete := true, ts := 0#32 }

/-- `event <- E`, with the step's result (R12, R88): how every command ends. -/
def finish (e : Event) (r : Option Frame) (s : State) : State := { s with event := e, result := r }

/-! ## Taking an error event, and the reset primitive

There is no return operation: "There is no return instruction and nothing to restore" (60_exceptions.md R122). -/

/-- `CORE_RESET()` (R86): clears `cursor`, the lengths, `complete` and `ts`; leaves `BUF` and `dest`. -/
def coreReset (s : State) : State :=
  { s with cursor := 0#4, totalLen := 0#4, payloadLen := 0#8, complete := false, ts := 0#32 }

/-- `raise E` (R12, R121): `CORE_RESET()`, then the command ends with label `E`; nothing is saved and control goes nowhere. -/
def raise (e : Event) (s : State) : State := finish e none (coreReset s)

/-- The power-on reset (42_reset_drain_nop.md R92, 10_state.md R24): the seven items as after construction. What the environment
has still to present, the time sampled and the step counter are not the block's and stay. -/
def powerOn (s : State) : State :=
  { State.reset with now := s.now, pending := s.pending, stepCount := s.stepCount }

/-- The codes of the labels (R111). -/
def Event.code : Event → Nat
  | .noEvent => 0
  | .framingError => 1
  | .capacityViolation => 2
  | .checksumFailure => 3
  | .timeout => 4
  | .backpressureDrop => 5
  | .frameComplete => 6

/-- The column "Resets the block?" of R111. -/
def Event.resets : Event → Bool
  | .noEvent => false
  | .framingError => true
  | .capacityViolation => true
  | .checksumFailure => true
  | .timeout => true
  | .backpressureDrop => false
  | .frameComplete => false

end Sys2Proof.Machine
end

