-- ==== Sys2Proof/Machine/Operands.lean ====
section
/-! DEFINITION. The operand forms: which cell a store goes to, where the payload and the trailer lie, storing the received byte, and the
checksum over the payload (30_encoding.md R51, R56; 20_memory.md R33, R37; 43_outputs_and_checksum.md R97). -/

namespace Sys2Proof.Machine

/-- The cell an `ACCEPT` that stores writes: `BUF[cursor]` (R37). -/
def storeIndex (s : State) : Nat := s.cursor.toNat

/-- The cell of payload byte `i`: `HDR + i` (R33). -/
def payloadIndex (i : Nat) : Nat := Config.hdr + i

/-- The cell of the trailer: `HDR + payload_len` (R33, R74). -/
def trailerIndex (s : State) : Nat := Config.hdr + s.payloadLen.toNat

/-- `MemWrite(cursor, 1, data); cursor <- cursor + 1` (R70 to R73). A cell that does not exist is a fault (log entry 7). -/
def storeByte (data : Byte) (s : State) : Result :=
  if inBuf (storeIndex s) then .next (advanceCursor (writeBuf (storeIndex s) data s))
  else .fault (.bufferIndex (storeIndex s))

/-- The wraparound sum of the first `n` payload cells, first cell first (R97). -/
def sumCells (s : State) : Nat → Byte
  | 0 => 0x00#8
  | n + 1 => sumCells s n + readCell s (payloadIndex n)

/-- `CSUM(n)` (R97): the complement of the wraparound sum of the first `n` payload cells. -/
def csum (s : State) (n : Nat) : Byte := ~~~ (sumCells s n)

/-- The payload cells of the frame held, in order (R88). -/
def payloadCells (s : State) : List Byte :=
  (List.range s.payloadLen.toNat).map (fun i => readCell s (payloadIndex i))

/-- The result of draining a complete frame (R88). -/
def drainFrame (s : State) : Frame :=
  { dest := readDest s, len := s.payloadLen, payload := payloadCells s }

/-- Every payload cell `DRAIN` reads exists (R39). -/
def payloadInBuf (s : State) : Bool := decide (Config.hdr + s.payloadLen.toNat ≤ Config.maxFrame)

end Sys2Proof.Machine
end

