-- ==== Sys2Proof/Machine/Flags.lean ====
section
/-! DEFINITION. Every test a command makes (43_outputs_and_checksum.md R101), and the completion check, the one writer of the block's one
flag `complete` besides the reset primitive (10_state.md R19). -/

namespace Sys2Proof.Machine

/-- `data = SENTINEL`, all 8 bits (R70). -/
def isSentinel (data : Byte) : Bool := data == Config.sentinel

/-- `zext(data) + OVERHEAD > MAX_FRAME`, over the naturals, strict (R71). -/
def exceedsCapacity (data : Byte) : Bool := decide (Config.maxFrame < data.toNat + Config.overhead)

/-- `total_len != 0 and cursor = total_len` (R74). -/
def frameFilled (s : State) : Bool := s.totalLen != 0#4 && s.cursor == s.totalLen

/-- `CSUM(payload_len) = MemRead(HDR + payload_len, 1)`, all 8 bits (R74). -/
def checksumMatches (s : State) : Bool := csum s s.payloadLen.toNat == readCell s (trailerIndex s)

/-- `now -_W ts`, modulo `2^TIME_W` (41_poll.md R83). -/
def elapsed (s : State) : Time := s.now - s.ts

/-- The watchdog fires: `complete = 0 and ts != 0 and (now -_W ts) > TIMEOUT_MS`, strict (R80, R82). -/
def watchdogFires (s : State) : Bool :=
  !s.complete && s.ts != 0#32 && decide (Config.timeoutMs < (elapsed s).toNat)

/-- The completion check, the last step of an `ACCEPT` that stored its byte (R74). A trailer cell that does not exist is a fault
(log entry 7). -/
def completionCheck (s : State) : Result :=
  if frameFilled s then
    if inBuf (trailerIndex s) then
      if checksumMatches s then .next (finish .frameComplete none (markComplete s))
      else .next (raise .checksumFailure s)
    else .fault (.bufferIndex (trailerIndex s))
  else .next (finish .noEvent none s)

end Sys2Proof.Machine
end

