-- ==== Sys2Proof/Machine/Accept.lean ====
section
/-! DEFINITION. `ACCEPT`, the byte accumulator and validator (40_accept.md R67 to R74). -/

namespace Sys2Proof.Machine

/-- The arm for `cursor` 0 and 1: expecting a framing byte (R70). -/
def acceptFraming (data : Byte) (s : State) : Result :=
  if isSentinel data then andThen (storeByte data s) completionCheck
  else .next (raise .framingError s)

/-- The arm for `cursor` 2: the length byte and the capacity test (R71). -/
def acceptLength (data : Byte) (s : State) : Result :=
  if exceedsCapacity data then .next (raise .capacityViolation s)
  else andThen (storeByte data (setLengths data s)) completionCheck

/-- The arm for `cursor` 3: the destination byte (R72). -/
def acceptDest (data : Byte) (s : State) : Result :=
  andThen (storeByte data (setDest data s)) completionCheck

/-- The arm for `cursor` 4 and more: a payload byte or the trailer (R73). -/
def acceptBody (data : Byte) (s : State) : Result :=
  andThen (storeByte data s) completionCheck

/-- The arm `cursor` chooses (R67). -/
def acceptArm (data : Byte) (s : State) : Result :=
  if s.cursor.toNat < 2 then acceptFraming data s
  else if s.cursor.toNat = 2 then acceptLength data s
  else if s.cursor.toNat = 3 then acceptDest data s
  else acceptBody data s

/-- `ACCEPT data, now` (R67): the backpressure test (R68), the timestamp (R69), one arm, the completion check. -/
def execAccept (data : Byte) (s : State) : Result :=
  if s.complete then .next (finish .backpressureDrop none s)
  else acceptArm data (stampTime s)

end Sys2Proof.Machine
end

