-- ==== Sys2Proof/Machine/Control.lean ====
section
/-! DEFINITION. `NOP`, `RESET`, `DRAIN` and the reserved opcodes (42_reset_drain_nop.md R87 to R91). -/

namespace Sys2Proof.Machine

/-- `NOP` (R90): no register or cell changes. -/
def execNop (s : State) : Result := .next (finish .noEvent none s)

/-- `RESET` (R87): the reset primitive, unconditionally, with label None. -/
def execReset (s : State) : Result := .next (finish .noEvent none (coreReset s))

/-- `DRAIN`: the frame and the reset primitive in one step while complete (R88); otherwise no result and no change (R89; log entry
12). A payload cell that does not exist is a fault (log entry 7); `MAX_FRAME` is the first such index. -/
def execDrain (s : State) : Result :=
  if s.complete then
    if payloadInBuf s then .next (finish .noEvent (some (drainFrame s)) (coreReset s))
    else .fault (.bufferIndex Config.maxFrame)
  else .next (finish .noEvent none s)

/-- What the block does with a reserved opcode: "no register or cell changes" (R91; log entry 9). -/
def ignoreReserved (s : State) : Result := .next (finish .noEvent none s)

/-- Reserved opcode `101` (R91). -/
def execReserved101 (s : State) : Result := ignoreReserved s

/-- Reserved opcode `110` (R91). -/
def execReserved110 (s : State) : Result := ignoreReserved s

/-- Reserved opcode `111` (R91). -/
def execReserved111 (s : State) : Result := ignoreReserved s

end Sys2Proof.Machine
end

