-- ==== Sys2Proof/Machine/Poll.lean ====
section
/-! DEFINITION. `POLL`, the timeout watchdog (41_poll.md R80 to R84). -/

namespace Sys2Proof.Machine

/-- `POLL now` (R81): the frame in progress is discarded when the watchdog fires, and nothing changes otherwise. -/
def execPoll (s : State) : Result :=
  if watchdogFires s then .next (raise .timeout s) else .next (finish .noEvent none s)

end Sys2Proof.Machine
end

