-- ==== Sys2Proof/WellFormed.lean ====
section
/-! DEFINITION. The checks on what is given to the model from outside. A term of `Instr` needs none: its one operand is a byte and
"all 256 `data` values are legal operands" (30_encoding.md R58). What can be ill formed is a configuration (00_scope.md R6 to R8),
and a number offered as a command word (R54). -/

namespace Sys2Proof

/-- `OVERHEAD = HDR + 1` always (R6). -/
def Params.overheadOk (p : Params) : Bool := p.overhead == p.hdr + 1

/-- `OVERHEAD <= MAX_FRAME <= 260` (R7). -/
def Params.maxFrameOk (p : Params) : Bool := decide (p.overhead ≤ p.maxFrame) && decide (p.maxFrame ≤ 260)

/-- `TIMEOUT_MS` is in `0 .. 2^TIME_W - 1` (10_state.md R22). -/
def Params.timeoutOk (p : Params) : Bool := decide (p.timeoutMs < 2 ^ p.timeW)

/-- `CUR_W` is the least `n` with `2^n > MAX_FRAME` (R8). -/
def Params.curWOk (p : Params) : Bool :=
  decide (p.maxFrame < 2 ^ p.curW) && decide (2 ^ (p.curW - 1) ≤ p.maxFrame)

/-- The widths of the types of Word.lean (R8). -/
def Params.widthsOk (p : Params) : Bool := p.timeW == 32 && p.cmdW == 11 && p.curW == 4

/-- A configuration this model's types can hold and the spec allows (R6, R7, R8, R22). -/
def Params.legal (p : Params) : Bool :=
  p.overheadOk && p.maxFrameOk && p.timeoutOk && p.curWOk && p.widthsOk

/-- A number fits the command word's 11 wires (R54). -/
def cmdWordFits (w : Nat) : Bool := decide (w < 2 ^ Config.params.cmdW)

end Sys2Proof
end

