-- ==== Sys2Proof/Decode.lean ====
section
/-! DEFINITION. The decoder and the encoder of the command word (30_encoding.md R54 to R58), and the table's masks (R55). -/

namespace Sys2Proof

/-- Why a number is no command. -/
inductive DecodeError where
  /-- The number has a bit above bit 10: the command word has `CMD_W` = 11 bits (R54). Raised by `decode`; safe. -/
  | tooWide
  deriving DecidableEq, Repr

/-- `op = cmd[10:8]` (R54). -/
def opField (w : CmdWord) : BitVec 3 := w.extractLsb' 8 3

/-- `data = cmd[7:0]` (R54). -/
def dataField (w : CmdWord) : Byte := w.extractLsb' 0 8

/-- The word `{op, data}` (R54). -/
def mkWord (op : BitVec 3) (data : Byte) : CmdWord := op ++ data

/-- The opcode map (R55): every value of `op` names one row; the `data` field is read by `ACCEPT` alone (R58). -/
def decodeFields (op : BitVec 3) (data : Byte) : Instr :=
  match op.toNat with
  | 0 => .nop
  | 1 => .accept data
  | 2 => .poll
  | 3 => .reset
  | 4 => .drain
  | 5 => .reserved101
  | 6 => .reserved110
  | _ => .reserved111

/-- Decoding of an 11-bit word: total, since the opcode map has a row for every `op` (R55). -/
def decodeWord (w : CmdWord) : Instr := decodeFields (opField w) (dataField w)

/-- Decoding of any number offered as a command word; a number that does not fit 11 bits is refused by name. -/
def decode (w : Nat) : Except DecodeError Instr :=
  if cmdWordFits w then .ok (decodeWord (BitVec.ofNat 11 w)) else .error .tooWide

/-- The number an instruction of `nbits` table bits with bits `w` stands for: the bits above `nbits` are 0. -/
def tableNumber (nbits w : Nat) : Nat := w % 2 ^ nbits

/-- What the decoder reads from a table row's bits: the command word is one word, bit 0 its least significant (R54). -/
def decodeTableWord (nbits w : Nat) : Option Instr :=
  match decode (tableNumber nbits w) with
  | .ok i => some i
  | .error _ => none

/-- The `op` value of a command's row (R55). -/
def opcode : Instr → BitVec 3
  | .nop => 0b000#3
  | .accept _ => 0b001#3
  | .poll => 0b010#3
  | .reset => 0b011#3
  | .drain => 0b100#3
  | .reserved101 => 0b101#3
  | .reserved110 => 0b110#3
  | .reserved111 => 0b111#3

/-- The `data` field the assembler emits: the byte of an `ACCEPT`, `0x00` for every other row (R58). -/
def dataOf : Instr → Byte
  | .nop => 0x00#8
  | .accept data => data
  | .poll => 0x00#8
  | .reset => 0x00#8
  | .drain => 0x00#8
  | .reserved101 => 0x00#8
  | .reserved110 => 0x00#8
  | .reserved111 => 0x00#8

/-- The word a command assembles to (R55, R60). -/
def encode (i : Instr) : CmdWord := mkWord (opcode i) (dataOf i)

/-- The table's `mask`, the same for every row (R55). -/
def rowMask : CmdWord := 0x700#11

/-- The table's `match` of a command's row (R55, opcode_table.json). -/
def rowMatch : Instr → CmdWord
  | .nop => 0x000#11
  | .accept _ => 0x100#11
  | .poll => 0x200#11
  | .reset => 0x300#11
  | .drain => 0x400#11
  | .reserved101 => 0x500#11
  | .reserved110 => 0x600#11
  | .reserved111 => 0x700#11

/-- The command reads the `now` input: `ACCEPT` and `POLL` only (30_encoding.md R48, R56; the table's "reads_now"). -/
def readsNow : Instr → Bool
  | .nop => false
  | .accept _ => true
  | .poll => true
  | .reset => false
  | .drain => false
  | .reserved101 => false
  | .reserved110 => false
  | .reserved111 => false

/-- The row is reserved: no source operation stands behind it (R57, R91). -/
def isReserved : Instr → Bool
  | .nop => false
  | .accept _ => false
  | .poll => false
  | .reset => false
  | .drain => false
  | .reserved101 => true
  | .reserved110 => true
  | .reserved111 => true

end Sys2Proof
end

