-- ==== Sys2Proof/Machine/Fetch.lean ====
section
/-! DEFINITION. How a step comes by its inputs (00_scope.md R10; 20_memory.md R44: nothing is fetched from memory,
"each command arrives from the caller on the `cmd` input"). Log entry 1. -/

namespace Sys2Proof.Machine

/-- The inputs of a step in which the caller presents nothing: the word of `NOP`, "a step in which the caller invokes no operation"
(R90), at the time last sampled. -/
def idleInput (s : State) : StepInput := { rst := false, cmd := encode .nop, now := s.now }

/-- The inputs the next step samples: the first of those pending, else the idle ones. -/
def nextInput (s : State) : StepInput :=
  match s.pending with
  | [] => idleInput s
  | i :: _ => i

/-- Sampling: the input is taken off the list, `now` holds its time, and the step is counted (R10). -/
def sample (s : State) : State :=
  { s with now := (nextInput s).now, pending := s.pending.tail, stepCount := s.stepCount + 1 }

/-- The environment presents `i` before everything else it has pending. -/
def present (i : StepInput) (s : State) : State := { s with pending := i :: s.pending }

/-- The command word `w`, at the time last sampled, as a step's inputs. -/
def wordInput (w : Nat) (s : State) : StepInput :=
  { rst := false, cmd := BitVec.ofNat 11 w, now := s.now }

/-- Present the number `w` as the next command; a number that does not fit the 11 wires cannot be presented. -/
def presentWord (w : Nat) (s : State) : State :=
  if cmdWordFits w then present (wordInput w s) s else s

end Sys2Proof.Machine
end

