-- ==== Sys2Proof/Machine/Step.lean ====
section
/-! DEFINITION. One step of the block (00_scope.md R10): sample the inputs, then perform the whole of the command's rule; while `rst` is
asserted the block takes no command (42_reset_drain_nop.md R92). -/

namespace Sys2Proof.Machine

/-- One step. -/
def step (s : State) : Host.Outcome State Fault Refusal :=
  if (nextInput s).rst then .next (powerOn (sample s))
  else exec (decodeWord (nextInput s).cmd) (sample s)

/-- `s` with the instruction of `nbits` table bits `w` as the input its next step samples; nothing else changes (log entry 1). -/
def State.withFetchWord (s : State) (nbits w : Nat) : State := presentWord (tableNumber nbits w) s

end Sys2Proof.Machine
end

