-- ==== Sys2Proof/Machine/Outputs.lean ====
section
/-! DEFINITION. The outputs: pure functions of the state between steps (43_outputs_and_checksum.md R93 to R98). `look` numbers the caller's
looks, so that an unspecified value may differ "at each look" (R96; log entry 8). -/

namespace Sys2Proof.Machine

/-- `ready = complete` (R93). -/
def ready (s : State) : Bool := s.complete

/-- `out_dest = dest` (R94); free while `dest` holds no value. -/
def outDest (look : Nat) (s : State) : Byte := s.dest.getD (Config.freeOutDest s.stepCount look)

/-- `out_len = payload_len` (R95). -/
def outLen (s : State) : Byte := s.payloadLen

/-- `buf_data = BUF[buf_idx]` (R96); free for a cell that holds no value and for `buf_idx >= MAX_FRAME`. -/
def bufData (look : Nat) (idx : Cur) (s : State) : Byte :=
  if inBuf idx.toNat then (s.buf.read idx.toNat).getD (Config.freeBufData s.stepCount look idx.toNat)
  else Config.freeBufData s.stepCount look idx.toNat

/-- The first `n` payload cells exist and hold values. -/
def payloadWritten (s : State) : Nat → Bool
  | 0 => true
  | n + 1 => payloadWritten s n && inBuf (payloadIndex n) && (s.buf.read (payloadIndex n)).isSome

/-- `out_csum = CSUM(payload_len)` (R98); free while a cell it reads holds no value or does not exist. -/
def outCsum (look : Nat) (s : State) : Byte :=
  if payloadWritten s s.payloadLen.toNat then csum s s.payloadLen.toNat
  else Config.freeOutCsum s.stepCount look

end Sys2Proof.Machine
end

