-- ==== Sys2Proof/Machine/Phase.lean ====
section
/-! DEFINITION. The seven named states as a function of the registers (10_state.md R26, "not extra state") and the transition tables
of 44_state_machine.md (R103 to R105), written from the tables, for cross-checking the meanings. -/

namespace Sys2Proof.Machine

/-- The named states of the source's state machine (R26, R102). -/
inductive Phase where
  | idle
  | framing1
  | framing2
  | lengthKnown
  | destinationKnown
  | accumulatingPayload
  | complete
  deriving DecidableEq, Repr

/-- The name of a state (R26). R26 names the states that a run reaches. DESIGN CHOICE (log entry 14): the function names the others too, by
`complete` and `cursor` alone: `complete = 0` with `cursor >= 5` and not `cursor < total_len` is `accumulatingPayload`, `cursor = 3`
with `total_len = 0` is `lengthKnown`, `complete = 1` with `cursor != total_len` is `complete`. -/
def phase (s : State) : Phase :=
  if s.complete then .complete
  else
    match s.cursor.toNat with
    | 0 => .idle
    | 1 => .framing1
    | 2 => .framing2
    | 3 => .lengthKnown
    | 4 => .destinationKnown
    | _ => .accumulatingPayload

/-- The row of R103 for `ACCEPT data` from state `s`: where it goes and its label. -/
def acceptRow (data : Byte) (s : State) : Phase × Event :=
  match phase s with
  | .idle => if data = 0xAA#8 then (.framing1, .noEvent) else (.idle, .framingError)
  | .framing1 => if data = 0xAA#8 then (.framing2, .noEvent) else (.idle, .framingError)
  | .framing2 => if data.toNat ≤ Config.maxPayload then (.lengthKnown, .noEvent) else (.idle, .capacityViolation)
  | .lengthKnown => (.destinationKnown, .noEvent)
  | .destinationKnown =>
    if 1 ≤ s.payloadLen.toNat then (.accumulatingPayload, .noEvent)
    else if data = 0xFF#8 then (.complete, .frameComplete)
    else (.idle, .checksumFailure)
  | .accumulatingPayload =>
    if s.cursor.toNat < s.totalLen.toNat - 1 then (.accumulatingPayload, .noEvent)
    else if data = csum s s.payloadLen.toNat then (.complete, .frameComplete)
    else (.idle, .checksumFailure)
  | .complete => (.complete, .backpressureDrop)

/-- The row of R104 for `POLL` from state `s`. -/
def pollRow (s : State) : Phase × Event :=
  match phase s with
  | .idle => (.idle, .noEvent)
  | .complete => (.complete, .noEvent)
  | p => if s.ts ≠ 0#32 ∧ Config.timeoutMs < (elapsed s).toNat then (.idle, .timeout) else (p, .noEvent)

/-- The row of R105 for `RESET`: from any state to `Idle`. -/
def resetRow (_ : State) : Phase × Event := (.idle, .noEvent)

/-- The rows of R105 for `DRAIN`. -/
def drainRow (s : State) : Phase × Event :=
  match phase s with
  | .complete => (.idle, .noEvent)
  | p => (p, .noEvent)

/-- The row of R105 for `NOP` and the reserved opcodes: unchanged. -/
def idleRow (s : State) : Phase × Event := (phase s, .noEvent)

/-- The transition tables R103 to R105 as one function. -/
def tableRow (i : Instr) (s : State) : Phase × Event :=
  match i with
  | .nop => idleRow s
  | .accept data => acceptRow data s
  | .poll => pollRow s
  | .reset => resetRow s
  | .drain => drainRow s
  | .reserved101 => idleRow s
  | .reserved110 => idleRow s
  | .reserved111 => idleRow s

end Sys2Proof.Machine
end

