-- ==== Sys2Proof/Machine/Wire.lean ====
section
/-! DEFINITION. The frame on the wire and the pseudo-instructions of a trace (30_encoding.md R49 to R53, R61). -/

namespace Sys2Proof.Machine

/-- The 8-bit wraparound sum of a list of bytes. -/
def sumBytes : List Byte → Byte
  | [] => 0x00#8
  | b :: bs => b + sumBytes bs

/-- The checksum field of a payload: the complement of the wraparound sum (R52). -/
def checksumOf (payload : List Byte) : Byte := ~~~ (sumBytes payload)

/-- The bytes of the frame with destination `dest` and payload `p`: two sentinels, the length, the destination, the payload, the
checksum (R49, R61 `FRAME`). -/
def frameBytes (dest : Byte) (p : List Byte) : List Byte :=
  Config.sentinel :: Config.sentinel :: BitVec.ofNat 8 p.length :: dest :: (p ++ [checksumOf p])

/-- Total frame length: payload length + `OVERHEAD` (R50). -/
def frameLength (payloadLength : Nat) : Nat := payloadLength + Config.overhead

/-- The bytes are one well-formed frame (R49 to R53): two sentinels, a length up to `MAX_PAYLOAD`, any destination, that many payload
bytes, and their checksum. -/
def wellFormedFrame : List Byte → Bool
  | a :: b :: len :: _ :: rest =>
    a == Config.sentinel && b == Config.sentinel && decide (len.toNat ≤ Config.maxPayload) &&
      decide (rest.length = len.toNat + 1) &&
      rest.drop len.toNat == [checksumOf (rest.take len.toNat)]
  | _ => false

/-- `ACCEPT b @t` as a step's inputs (R60). -/
def acceptInput (b : Byte) (t : Time) : StepInput := { rst := false, cmd := encode (.accept b), now := t }

/-- `FEED [b0, b1, …] @t`: one `ACCEPT` a byte, one millisecond apart, modulo `2^TIME_W` (R61). -/
def feed : List Byte → Time → List StepInput
  | [], _ => []
  | b :: bs, t => acceptInput b t :: feed bs (t + 1#32)

/-- `FEED [b0, b1, …] @t +0`: every `ACCEPT` at the same time (R61). -/
def feedSame (bs : List Byte) (t : Time) : List StepInput := bs.map (fun b => acceptInput b t)

/-- `FRAME dest, p @t` (R61). -/
def frameTrace (dest : Byte) (p : List Byte) (t : Time) : List StepInput := feed (frameBytes dest p) t

end Sys2Proof.Machine
end

