-- ==== Sys2Proof/Safety.lean ====
section
/-! DEFINITION. What counts as a safe state and a safe run, in the terms claims use: the invariants of 10_state.md R25, the premise P2 on
the clock (70_reset_and_hazards.md R135) and its form without a wrap, traces without reserved opcodes (30_encoding.md R57), and when two states of the block behave
alike (R132). -/

namespace Sys2Proof.Safety

open Sys2Proof.Machine

/-- I1: `total_len = 0` or `OVERHEAD <= total_len <= MAX_FRAME`. -/
abbrev I1 (s : State) : Prop :=
  s.totalLen = 0#4 ∨ (Config.overhead ≤ s.totalLen.toNat ∧ s.totalLen.toNat ≤ Config.maxFrame)

/-- I2: a known `total_len` is `payload_len + OVERHEAD`; an unknown one goes with `payload_len = 0`. -/
abbrev I2 (s : State) : Prop :=
  (s.totalLen ≠ 0#4 → s.totalLen.toNat = s.payloadLen.toNat + Config.overhead) ∧
    (s.totalLen = 0#4 → s.payloadLen = 0#8)

/-- I3: `cursor <= MAX_FRAME`; at most 2 while `total_len` is unknown; from 3 to `total_len` once it is known. -/
abbrev I3 (s : State) : Prop :=
  s.cursor.toNat ≤ Config.maxFrame ∧ (s.totalLen = 0#4 → s.cursor.toNat ≤ 2) ∧
    (s.totalLen ≠ 0#4 → 3 ≤ s.cursor.toNat ∧ s.cursor.toNat ≤ s.totalLen.toNat)

/-- I4: `complete = 1` implies `total_len != 0`, `cursor = total_len` and `ts = 0`. -/
abbrev I4 (s : State) : Prop :=
  s.complete = true → s.totalLen ≠ 0#4 ∧ s.cursor = s.totalLen ∧ s.ts = 0#32

/-- I5: `complete = 0` and `total_len != 0` implies `cursor < total_len`. -/
abbrev I5 (s : State) : Prop :=
  s.complete = false → s.totalLen ≠ 0#4 → s.cursor.toNat < s.totalLen.toNat

/-- I6: every cell below `cursor` holds a value; the header cells hold the sentinels, the length and the destination. -/
abbrev I6 (s : State) : Prop :=
  (∀ k, k < s.cursor.toNat → (s.buf.read k).isSome = true) ∧
    (1 ≤ s.cursor.toNat → s.buf.read 0 = some Config.sentinel) ∧
    (2 ≤ s.cursor.toNat → s.buf.read 1 = some Config.sentinel) ∧
    (3 ≤ s.cursor.toNat → s.buf.read 2 = some s.payloadLen) ∧
    (4 ≤ s.cursor.toNat → s.dest.isSome = true ∧ s.dest = s.buf.read 3)

/-- I7: `complete = 1` implies that the trailer cell holds `CSUM(payload_len)`. -/
abbrev I7 (s : State) : Prop :=
  s.complete = true → s.buf.read (trailerIndex s) = some (csum s s.payloadLen.toNat)

/-- I8: `cursor = 0` implies that the other cleared registers are 0 too. -/
abbrev I8 (s : State) : Prop :=
  s.cursor = 0#4 → s.complete = false ∧ s.totalLen = 0#4 ∧ s.payloadLen = 0#8 ∧ s.ts = 0#32

/-- The invariant of the block: the memory's canonical form and I1 to I8 (R25). (I9 speaks of an earlier step's input; it is stated
of a step in `Obligations.TimestampOfLastAccept`.) -/
structure Invariant (s : State) : Prop where
  mem : Memory.wf s.buf
  i1 : I1 s
  i2 : I2 s
  i3 : I3 s
  i4 : I4 s
  i5 : I5 s
  i6 : I6 s
  i7 : I7 s
  i8 : I8 s

/-- A frame is in progress: `complete = 0` and `cursor > 0` (R26, I9). -/
abbrev inProgress (s : State) : Prop := s.complete = false ∧ 0 < s.cursor.toNat

/-- The idle state (R26). -/
abbrev isIdle (s : State) : Prop := s.complete = false ∧ s.cursor = 0#4

/-- `k` steps, one after the other, stopping at the first that does not go on. -/
def run : Nat → State → Result
  | 0, s => .next s
  | k + 1, s => andThen (step s) (run k)

/-- The times of the inputs that read `now`: those of `ACCEPT` and `POLL` (R135). -/
def times (l : List StepInput) : List Time :=
  (l.filter (fun i => !i.rst && readsNow (decodeWord i.cmd))).map StepInput.now

/-- P2 (R135): the `now` values of the `ACCEPT`s and `POLL`s to come are non-decreasing, apart from the wrap of the `TIME_W`-bit counter.
`clock` is the count of milliseconds behind those values, one number for each, which does not decrease; each value is its count modulo
`2^32`. `since` is the count behind the timestamp held, at or before all of them; `ts = 0` means not set (R20). DEDUCED (log entry
10): the values alone do not tell a wrap from a step back, so the counts are named. -/
structure PremiseP2 (clock : List Nat) (since : Nat) (s : State) : Prop where
  nows : times s.pending = clock.map (BitVec.ofNat 32)
  nonDecreasing : clock.Pairwise (fun a b => a ≤ b)
  notBefore : ∀ c ∈ clock, since ≤ c
  stamp : s.ts = 0#32 ∨ s.ts = BitVec.ofNat 32 since

/-- The narrower premise of a trace whose times stay below `2^TIME_W` (U7, "all times below `2^TIME_W`"; R83): P2 without a wrap of the
counter. The `now` values of the `ACCEPT`s and `POLL`s to come do not decrease as numbers and none lies below `ts`. DESIGN CHOICE (log
entry 10): the wrap that P2 allows is left out of it. -/
abbrev MonotoneClock (s : State) : Prop :=
  (times s.pending).Pairwise (fun a b => a.toNat ≤ b.toNat) ∧ ∀ t ∈ times s.pending, s.ts.toNat ≤ t.toNat

/-- No reserved opcode is presented: the traces "a model should refuse" otherwise (R57, U5; log entry 9). -/
def noReserved (l : List StepInput) : Bool := l.all (fun i => i.rst || !isReserved (decodeWord i.cmd))

/-- Two states that no command sequence can tell apart (R132): they agree on the cleared registers, on every cell below `cursor`, on
`dest` once it belongs to the frame held, and on the inputs to come. The time last sampled may differ: a step samples its own. -/
def alike (s t : State) : Prop :=
  s.cursor = t.cursor ∧ s.totalLen = t.totalLen ∧ s.payloadLen = t.payloadLen ∧ s.complete = t.complete ∧ s.ts = t.ts ∧
    (∀ k, k < s.cursor.toNat → s.buf.read k = t.buf.read k) ∧ (4 ≤ s.cursor.toNat → s.dest = t.dest) ∧
    s.pending = t.pending

end Sys2Proof.Safety
end

