-- ==== Sys2Proof/Certificates/Slice0/Obligations.lean ====
section
/-! DEFINITION. The statements for the provers. Each docstring names the rule of the spec it formalises; where a statement rests on an
inference the spec marks as its own, or on a choice of the model, the docstring says so. -/

open Sys2Proof Sys2Proof.Machine Sys2Proof.Safety

/-! ## Encoding -/

/-- Words written out in the spec decode to the commands they stand for (95_test_vectors.md part E). -/
def Obligations.SpecWordsDecode : Prop :=
  decodeWord 0b00000000000#11 = .nop ∧ decodeWord 0b00011111111#11 = .nop ∧
    decodeWord 0b00100000000#11 = .accept 0x00#8 ∧ decodeWord 0b00101010101#11 = .accept 0x55#8 ∧
    decodeWord 0b00110101010#11 = .accept 0xAA#8 ∧ decodeWord 0b00111111111#11 = .accept 0xFF#8 ∧
    decodeWord 0b01000000000#11 = .poll ∧ decodeWord 0b01010101010#11 = .poll ∧
    decodeWord 0b01100000000#11 = .reset ∧ decodeWord 0b01111111111#11 = .reset ∧
    decodeWord 0b10000000000#11 = .drain ∧ decodeWord 0b10001010101#11 = .drain ∧
    decodeWord 0b10100000000#11 = .reserved101 ∧ decodeWord 0b11010101010#11 = .reserved110 ∧
    decodeWord 0b11111111111#11 = .reserved111

/-- R55: every value of `op`, as `match`/`mask` over the 11-bit word with mask `0x700`; an `ACCEPT` of byte `b` is the word
`0x100 + b`. -/
def Obligations.OpcodeMap : Prop :=
  (∀ w : CmdWord, (decodeWord w = .nop ↔ w &&& 0x700#11 = 0x000#11) ∧
    ((∃ b, decodeWord w = .accept b) ↔ w &&& 0x700#11 = 0x100#11) ∧
    (decodeWord w = .poll ↔ w &&& 0x700#11 = 0x200#11) ∧
    (decodeWord w = .reset ↔ w &&& 0x700#11 = 0x300#11) ∧
    (decodeWord w = .drain ↔ w &&& 0x700#11 = 0x400#11) ∧
    (decodeWord w = .reserved101 ↔ w &&& 0x700#11 = 0x500#11) ∧
    (decodeWord w = .reserved110 ↔ w &&& 0x700#11 = 0x600#11) ∧
    (decodeWord w = .reserved111 ↔ w &&& 0x700#11 = 0x700#11)) ∧
    ∀ b : Byte, decodeWord (BitVec.ofNat 11 (0x100 + b.toNat)) = .accept b

/-- Decode and encode agree: every command assembles to a word that decodes to it, with every value of the operand, through the
11-bit decoder, the decoder of numbers and the table's own numbering; and two words that decode to the same command have the same
`op` and, for an `ACCEPT`, the same `data`. A number that does not fit 11 bits is refused. -/
def Obligations.DecodeEncodeAgree : Prop :=
  (∀ i : Instr, decodeWord (encode i) = i ∧ decode (encode i).toNat = .ok i ∧
    decodeTableWord 11 (encode i).toNat = some i ∧ decodeTableWord 16 (encode i).toNat = some i) ∧
    (∀ v w : CmdWord, decodeWord v = decodeWord w ↔
      opField v = opField w ∧ (opField v = 0b001#3 → dataField v = dataField w)) ∧
    ∀ n : Nat, 2 ^ 11 ≤ n → decode n = .error .tooWide

/-- R58: the `data` field of `NOP`, `POLL`, `RESET` and `DRAIN` selects nothing, the assembler emits `0x00` there, and every
`data` value is a legal operand of `ACCEPT`. -/
def Obligations.DataFieldIgnored : Prop :=
  (∀ d e : Byte, decodeWord (mkWord 0b000#3 d) = decodeWord (mkWord 0b000#3 e) ∧
    decodeWord (mkWord 0b010#3 d) = decodeWord (mkWord 0b010#3 e) ∧
    decodeWord (mkWord 0b011#3 d) = decodeWord (mkWord 0b011#3 e) ∧
    decodeWord (mkWord 0b100#3 d) = decodeWord (mkWord 0b100#3 e)) ∧
    dataField (encode .nop) = 0x00#8 ∧ dataField (encode .poll) = 0x00#8 ∧
    dataField (encode .reset) = 0x00#8 ∧ dataField (encode .drain) = 0x00#8 ∧
    ∀ d : Byte, decodeWord (mkWord 0b001#3 d) = .accept d

/-! ## The step -/

/-- A step runs the decoded command (R10): with the input `inp` first among those pending and `rst` not asserted, the step is `exec` of
the command its word decodes to, at the state in which that input has been sampled. That the inputs to come stand in a list, and the
step counter, are the model's own (log entries 1 and 6). -/
def Obligations.StepRunsDecodedCommand : Prop :=
  ∀ (s : State) (inp : StepInput) (rest : List StepInput) (i : Instr),
    s.pending = inp :: rest → inp.rst = false → decode inp.cmd.toNat = .ok i →
      step s = exec i { s with now := inp.now, pending := rest, stepCount := s.stepCount + 1 }

/-- With nothing pending the step is that of `NOP`, at the time last sampled: the model's choice (log entry 1), resting on R90's "a step
in which the caller invokes no operation". -/
def Obligations.StepWithoutInputIdles : Prop :=
  ∀ s : State, s.pending = [] →
    step s = .next { s with event := .noEvent, result := none, stepCount := s.stepCount + 1 }

/-- While `rst` is asserted no command is taken, and the state is the power-on state (R92, R24). What the environment has still to
present, the time sampled and the step counter are not the block's (log entries 1, 4, 6, 13). -/
def Obligations.ResetInputGivesPowerOn : Prop :=
  ∀ (s : State) (inp : StepInput) (rest : List StepInput), s.pending = inp :: rest → inp.rst = true →
    step s = .next { State.reset with now := inp.now, pending := rest, stepCount := s.stepCount + 1 }

/-! ## ACCEPT -/

/-- R68, R117: while a complete frame is held the byte is dropped, whatever its value and whatever `now` is, and nothing of the block
changes. -/
def Obligations.AcceptDropsWhileComplete : Prop :=
  ∀ (data : Byte) (s : State), s.complete = true →
    exec (.accept data) s = .next { s with event := .backpressureDrop, result := none }

/-- R70: at `cursor` 0 and 1 a sentinel is stored and the cursor advances; any other byte raises `FramingError`. The total length is
unknown there (the premise `total_len = 0` is invariant I3 with I1). -/
def Obligations.AcceptFramingByte : Prop :=
  ∀ (data : Byte) (s : State), s.complete = false → s.cursor.toNat < 2 → s.totalLen = 0#4 →
    (data = 0xAA#8 → exec (.accept data) s = .next { s with
      buf := s.buf.write s.cursor.toNat data, cursor := s.cursor + 1#4, ts := s.now,
      event := .noEvent, result := none }) ∧
    (data ≠ 0xAA#8 → exec (.accept data) s = .next { s with
      cursor := 0#4, totalLen := 0#4, payloadLen := 0#8, complete := false, ts := 0#32,
      event := .framingError, result := none })

/-- R71: at `cursor` 2 the byte is the payload length. A total `data + 5`, over the naturals, above `MAX_FRAME` = 15 raises
`CapacityViolation`; otherwise the byte is stored and the lengths are set. -/
def Obligations.AcceptLengthByte : Prop :=
  ∀ (data : Byte) (s : State), s.complete = false → s.cursor = 2#4 →
    (data.toNat + 5 ≤ 15 → ∃ total : Cur, total.toNat = data.toNat + 5 ∧
      exec (.accept data) s = .next { s with
        buf := s.buf.write 2 data, payloadLen := data, totalLen := total, cursor := 3#4, ts := s.now,
        event := .noEvent, result := none }) ∧
    (15 < data.toNat + 5 → exec (.accept data) s = .next { s with
      cursor := 0#4, totalLen := 0#4, payloadLen := 0#8, complete := false, ts := 0#32,
      event := .capacityViolation, result := none }) ∧
    (15 < data.toNat + 5 ↔ 10 < data.toNat)

/-- R72: at `cursor` 3 every byte is stored, as the destination too. (The premise is invariant I1: no frame has total length 4.) -/
def Obligations.AcceptDestinationByte : Prop :=
  ∀ (data : Byte) (s : State), s.complete = false → s.cursor = 3#4 → I1 s →
    exec (.accept data) s = .next { s with
      buf := s.buf.write 3 data, dest := some data, cursor := 4#4, ts := s.now,
      event := .noEvent, result := none }

/-- R73: from `cursor` 4 on every byte, whatever its value, is stored and the cursor advances by one; the arm does not tell payload from
trailer, the completion check does, by where the cursor stands after the store. A byte that does not fill the frame does nothing
more. (`cursor < 15` wherever this arm runs: invariants I1, I5.) -/
def Obligations.AcceptPayloadByte : Prop :=
  ∀ (data : Byte) (s : State), s.complete = false → 4 ≤ s.cursor.toNat → s.cursor.toNat < 15 →
    let body : State := { s with buf := s.buf.write s.cursor.toNat data, cursor := s.cursor + 1#4, ts := s.now }
    exec (.accept data) s = completionCheck body ∧
    (s.cursor.toNat + 1 ≠ s.totalLen.toNat →
      exec (.accept data) s = .next { body with event := .noEvent, result := none })

/-- R74: the byte that brings `cursor` to `total_len` is stored first; if it equals the checksum of the payload the frame is complete and
`ts` is 0, otherwise the frame is discarded. `frame` is the state after the store; the invariant puts the trailer at the cell just
stored. While `total_len` is unknown or not reached, the check does nothing, with label None. -/
def Obligations.AcceptTrailerByte : Prop :=
  (∀ s : State, ¬ (s.totalLen ≠ 0#4 ∧ s.cursor = s.totalLen) →
    completionCheck s = .next { s with event := .noEvent, result := none }) ∧
  ∀ (data : Byte) (s : State), Invariant s → s.complete = false → 4 ≤ s.cursor.toNat →
    s.cursor.toNat + 1 = s.totalLen.toNat →
    let frame : State := { s with
      buf := s.buf.write s.cursor.toNat data, cursor := s.totalLen, ts := s.now }
    frame.buf.read (4 + s.payloadLen.toNat) = some data ∧
    (csum frame s.payloadLen.toNat = data → exec (.accept data) s = .next { frame with
      complete := true, ts := 0#32, event := .frameComplete, result := none }) ∧
    (csum frame s.payloadLen.toNat ≠ data → exec (.accept data) s = .next { frame with
      cursor := 0#4, totalLen := 0#4, payloadLen := 0#8, complete := false, ts := 0#32,
      event := .checksumFailure, result := none })

/-- R69: the time of every `ACCEPT` that is not ignored is recorded, and survives exactly when the frame is still in progress after
it. -/
def Obligations.AcceptRecordsTime : Prop :=
  ∀ (data : Byte) (s t : State), s.complete = false → exec (.accept data) s = .next t →
    (inProgress t → t.ts = s.now) ∧ (¬ inProgress t → t.ts = 0#32)

/-- `ACCEPT` does not test the timeout: what it does is the same whatever `ts` held (40_accept.md R77, which the spec marks as derived). -/
def Obligations.AcceptIgnoresElapsedTime : Prop :=
  ∀ (data : Byte) (s : State) (x : Time), s.complete = false →
    exec (.accept data) { s with ts := x } = exec (.accept data) s

/-- The frame of `ACCEPT` (R37, and R68 to R74): `BUF` changes at the cell it stores to, `storeIndex s`, alone, and not at all when the
byte is dropped or discarded at positions 0, 1, 2; `dest` changes at position 3 alone; the inputs and the step counter stay; a dropped
byte changes no register; `payload_len` and `total_len` change at position 2 alone, unless the frame is discarded. -/
def Obligations.AcceptFrame : Prop :=
  ∀ (data : Byte) (s t : State), exec (.accept data) s = .next t →
    (∀ a, a ≠ storeIndex s → t.buf.read a = s.buf.read a) ∧
    (s.complete = true ∨ (s.cursor.toNat < 2 ∧ data ≠ 0xAA#8) ∨ (s.cursor.toNat = 2 ∧ 15 < data.toNat + 5) →
      ∀ a, t.buf.read a = s.buf.read a) ∧
    (s.complete = true ∨ s.cursor ≠ 3#4 → t.dest = s.dest) ∧
    (s.complete = true → t.cursor = s.cursor ∧ t.totalLen = s.totalLen ∧ t.payloadLen = s.payloadLen ∧
      t.complete = s.complete ∧ t.ts = s.ts) ∧
    (s.cursor ≠ 2#4 → (t.totalLen = s.totalLen ∧ t.payloadLen = s.payloadLen) ∨
      (t.cursor = 0#4 ∧ t.totalLen = 0#4 ∧ t.payloadLen = 0#8)) ∧
    t.now = s.now ∧ t.pending = s.pending ∧ t.stepCount = s.stepCount ∧ t.result = none

/-! ## POLL -/

/-- R80, R81, R82: `POLL` discards the frame in progress exactly when `complete = 0`, `ts != 0` and `now -_32 ts` is strictly above
1000; otherwise it changes nothing, `ts` included. -/
def Obligations.PollTimesOut : Prop :=
  ∀ s : State,
    (s.complete = false ∧ s.ts ≠ 0#32 ∧ 1000 < (s.now - s.ts).toNat →
      exec .poll s = .next { s with
        cursor := 0#4, totalLen := 0#4, payloadLen := 0#8, complete := false, ts := 0#32,
        event := .timeout, result := none }) ∧
    (¬ (s.complete = false ∧ s.ts ≠ 0#32 ∧ 1000 < (s.now - s.ts).toNat) →
      exec .poll s = .next { s with event := .noEvent, result := none })

/-- R83: the difference is modulo `2^32`: ordinary when `ts <= now`, and `now + 2^32 - ts` when `now < ts`. -/
def Obligations.ElapsedIsModular : Prop :=
  ∀ s : State,
    (s.ts.toNat ≤ s.now.toNat → (elapsed s).toNat = s.now.toNat - s.ts.toNat) ∧
    (s.now.toNat < s.ts.toNat → (elapsed s).toNat = s.now.toNat + 2 ^ 32 - s.ts.toNat)

/-- `POLL` does nothing in the idle state, in the complete state and with `ts = 0`; in the five in-progress states with `ts != 0` the
time difference alone decides (41_poll.md R84, which the spec marks as derived). -/
def Obligations.PollLeavesIdleAndComplete : Prop :=
  ∀ s : State, Invariant s →
    (phase s = .idle ∨ phase s = .complete ∨ s.ts = 0#32 →
      exec .poll s = .next { s with event := .noEvent, result := none }) ∧
    (inProgress s → s.ts ≠ 0#32 → ∃ t, exec .poll s = .next t ∧
      (t.event = .timeout ↔ 1000 < (elapsed s).toNat) ∧
      (t.event = .timeout → phase t = .idle) ∧ (t.event ≠ .timeout → phase t = phase s))

/-! ## RESET, DRAIN, NOP, reserved opcodes -/

/-- R86: the reset primitive clears `cursor`, the lengths, `complete` and `ts`, and nothing else; it is idempotent. -/
def Obligations.CoreResetClears : Prop :=
  ∀ s : State, coreReset s = { s with
      cursor := 0#4, totalLen := 0#4, payloadLen := 0#8, complete := false, ts := 0#32 } ∧
    coreReset (coreReset s) = coreReset s ∧ phase (coreReset s) = .idle

/-- R87: `RESET` runs the reset primitive in any state, with no event; in the idle state it changes no register. -/
def Obligations.ResetReturnsToIdle : Prop :=
  ∀ s : State,
    exec .reset s = .next { s with
      cursor := 0#4, totalLen := 0#4, payloadLen := 0#8, complete := false, ts := 0#32,
      event := .noEvent, result := none } ∧
    (Invariant s → phase s = .idle → exec .reset s = .next { s with event := .noEvent, result := none })

/-- R88: `DRAIN` of a complete frame delivers the destination, the length and the payload the outputs show at the start of the step,
every byte of it held in its cell, and resets the block in the same step. -/
def Obligations.DrainDeliversFrame : Prop :=
  ∀ s : State, Invariant s → s.complete = true → ∃ f : Frame,
    exec .drain s = .next { s with
      cursor := 0#4, totalLen := 0#4, payloadLen := 0#8, complete := false, ts := 0#32,
      event := .noEvent, result := some f } ∧
    s.dest = some f.dest ∧ f.len = s.payloadLen ∧ f.payload.length = s.payloadLen.toNat ∧
    (∀ i, i < s.payloadLen.toNat → f.payload[i]? = s.buf.read (4 + i)) ∧
    ∀ look, outDest look s = f.dest ∧ outLen s = f.len ∧
      ∀ (i : Nat) (b : Byte), f.payload[i]? = some b → bufData look (BitVec.ofNat 4 (4 + i)) s = b

/-- R89: `DRAIN` with no complete frame delivers nothing and changes nothing. -/
def Obligations.DrainOfNothing : Prop :=
  ∀ s : State, s.complete = false → exec .drain s = .next { s with event := .noEvent, result := none }

/-- `NOP` changes nothing (42_reset_drain_nop.md R90). -/
def Obligations.NopChangesNothing : Prop :=
  ∀ s : State, exec .nop s = .next { s with event := .noEvent, result := none }

/-- A reserved opcode changes nothing: the block treats it as `NOP` (42_reset_drain_nop.md R91, the spec's decision D11). -/
def Obligations.ReservedOpcodesIgnored : Prop :=
  ∀ s : State,
    exec .reserved101 s = .next { s with event := .noEvent, result := none } ∧
    exec .reserved110 s = .next { s with event := .noEvent, result := none } ∧
    exec .reserved111 s = .next { s with event := .noEvent, result := none }

/-- The frame of every command but `ACCEPT` (R37, R86): no cell of `BUF` changes, `dest` stays, and the registers either all stay or are
all cleared; under `NOP` and the reserved opcodes they stay, under `RESET` they are cleared. -/
def Obligations.OtherCommandsFrame : Prop :=
  ∀ (i : Instr) (s t : State), (∀ data, i ≠ .accept data) → exec i s = .next t →
    (∀ a, t.buf.read a = s.buf.read a) ∧ t.dest = s.dest ∧
    t.now = s.now ∧ t.pending = s.pending ∧ t.stepCount = s.stepCount ∧
    ((t.cursor = s.cursor ∧ t.totalLen = s.totalLen ∧ t.payloadLen = s.payloadLen ∧ t.complete = s.complete ∧
        t.ts = s.ts ∧ i ≠ .reset) ∨
      (t.cursor = 0#4 ∧ t.totalLen = 0#4 ∧ t.payloadLen = 0#8 ∧ t.complete = false ∧ t.ts = 0#32 ∧
        (i = .reset ∨ i = .poll ∨ i = .drain)))

/-- `NOP`, `RESET`, `DRAIN` and the reserved opcodes do not read `now` (30_encoding.md R48, R56): with another time sampled they do the
same, and that time stays. -/
def Obligations.OnlyAcceptAndPollReadTime : Prop :=
  ∀ (i : Instr) (s : State) (x : Time), readsNow i = false →
    exec i { s with now := x } = andThen (exec i s) (fun t => .next { t with now := x })

/-! ## Events -/

/-- R111: the codes of the labels, which command raises each and where, and which of them reset the block. -/
def Obligations.EventCodes : Prop :=
  Event.code .noEvent = 0 ∧ Event.code .framingError = 1 ∧ Event.code .capacityViolation = 2 ∧
    Event.code .checksumFailure = 3 ∧ Event.code .timeout = 4 ∧ Event.code .backpressureDrop = 5 ∧
    Event.code .frameComplete = 6 ∧
    (∀ e : Event, e.resets = true ↔ 1 ≤ e.code ∧ e.code ≤ 4) ∧
    ∀ (i : Instr) (s t : State), exec i s = .next t →
      (t.event = .framingError → (∃ data, i = .accept data) ∧ (s.cursor = 0#4 ∨ s.cursor = 1#4)) ∧
      (t.event = .capacityViolation → (∃ data, i = .accept data) ∧ s.cursor = 2#4) ∧
      (t.event = .checksumFailure ∨ t.event = .frameComplete →
        (∃ data, i = .accept data) ∧ s.cursor.toNat + 1 = s.totalLen.toNat) ∧
      (t.event = .timeout → i = .poll) ∧
      (t.event = .backpressureDrop → (∃ data, i = .accept data) ∧ s.complete = true) ∧
      (t.event.resets = true → t.cursor = 0#4 ∧ t.totalLen = 0#4 ∧ t.payloadLen = 0#8 ∧ t.complete = false ∧ t.ts = 0#32) ∧
      (t.event = .backpressureDrop ∨ t.event = .frameComplete → t.complete = true)

/-- R113 to R117: the cause of each error event, and its effect. Each is raised by exactly the command and in exactly the case its rule
gives; the four discarding errors leave the idle state with `dest` as it was, the first two and the timeout with every cell as it was
too; `BackpressureDrop` changes nothing. -/
def Obligations.ErrorEvents : Prop :=
  ∀ (i : Instr) (s t : State), Invariant s → exec i s = .next t →
    (t.event = .framingError ↔ ∃ data, i = .accept data ∧ s.complete = false ∧ s.cursor.toNat < 2 ∧ data ≠ 0xAA#8) ∧
    (t.event = .capacityViolation ↔
      ∃ data, i = .accept data ∧ s.complete = false ∧ s.cursor = 2#4 ∧ 15 < data.toNat + 5) ∧
    (t.event = .checksumFailure ↔ ∃ data, i = .accept data ∧ s.complete = false ∧ s.totalLen ≠ 0#4 ∧
      s.cursor.toNat + 1 = s.totalLen.toNat ∧ data ≠ csum s s.payloadLen.toNat) ∧
    (t.event = .timeout ↔ i = .poll ∧ s.complete = false ∧ s.ts ≠ 0#32 ∧ 1000 < (s.now - s.ts).toNat) ∧
    (t.event = .backpressureDrop ↔ s.complete = true ∧ ∃ data, i = .accept data) ∧
    (t.event.resets = true → t.cursor = 0#4 ∧ t.totalLen = 0#4 ∧ t.payloadLen = 0#8 ∧ t.complete = false ∧
      t.ts = 0#32 ∧ t.dest = s.dest) ∧
    (t.event = .framingError ∨ t.event = .capacityViolation ∨ t.event = .timeout → t.buf = s.buf) ∧
    (t.event = .backpressureDrop → t = { s with event := .backpressureDrop, result := none })

/-- The label and the result of a step are read by no later step (60_exceptions.md R112, 10_state.md R27). That they stand in State at all
is the model's choice (log entry 5). -/
def Obligations.ReportIsNotRead : Prop :=
  ∀ (s : State) (e : Event) (r : Option Frame), step { s with event := e, result := r } = step s

/-! ## The checksum -/

/-- R97: `CSUM(n)` is `0xFF - ((BUF[4] + … + BUF[3+n]) mod 256)`, `0xFF` for no payload, and each further payload byte is added
modulo 256 with its carry discarded. -/
def Obligations.ChecksumFormula : Prop :=
  (∀ (s : State) (n : Nat), (csum s n).toNat =
    0xFF - ((List.range n).map (fun i => (readCell s (4 + i)).toNat)).sum % 256) ∧
    (∀ s : State, csum s 0 = 0xFF#8) ∧
    ∀ (s : State) (n : Nat), ~~~ (csum s (n + 1)) = ~~~ (csum s n) + readCell s (4 + n)

/-- The sum of the payload and its checksum is `0xFF` (43_outputs_and_checksum.md R99, which the spec marks as derived), for the buffer
and for a list of bytes alike. -/
def Obligations.ChecksumIdentity : Prop :=
  (∀ (s : State) (n : Nat), sumCells s n + csum s n = 0xFF#8) ∧
    ∀ p : List Byte, sumBytes p + checksumOf p = 0xFF#8

/-- R52: the checksum field is the complement of the 8-bit wraparound sum of the payload bytes, in whatever order they are added, and
`0xFF` for an empty payload. -/
def Obligations.ChecksumField : Prop :=
  (∀ p : List Byte, (checksumOf p).toNat = 0xFF - (p.map BitVec.toNat).sum % 256) ∧
    checksumOf [] = 0xFF#8 ∧ ∀ p q : List Byte, p.Perm q → checksumOf p = checksumOf q

/-- A single bit flipped in one payload byte is caught: with the trailer that would have completed the frame, the altered frame is
discarded (40_accept.md R74 (e), a property the spec marks as derived). -/
def Obligations.SingleBitFlipDiscards : Prop :=
  ∀ (c v : Byte) (k j : Nat) (s t : State), Invariant s → s.complete = false →
    s.cursor.toNat + 1 = s.totalLen.toNat → exec (.accept c) s = .next t → t.event = .frameComplete →
    k < s.payloadLen.toNat → s.buf.read (4 + k) = some v → j < 8 →
    ∃ u, exec (.accept c) { s with buf := s.buf.write (4 + k) (v ^^^ (1#8 <<< j)) } = .next u ∧
      u.event = .checksumFailure ∧ phase u = .idle

/-! ## Memory and outputs -/

/-- A read returns the last value written to that cell, and a write leaves every other cell alone (20_memory.md R38, R41). -/
def Obligations.ReadAfterWrite : Prop :=
  ∀ (m : Memory) (i : Nat) (v : Byte),
    (m.write i v).read i = some v ∧ ∀ j, j ≠ i → (m.write i v).read j = m.read j

/-- What the outputs show (43_outputs_and_checksum.md R93 to R96, R98): `ready`, `out_len` the registers, `out_dest` and `buf_data` the
values held, at any look; `out_csum` is `CSUM(payload_len)` whenever every cell it reads exists and holds a value, stale or not, and
so `0xFF` while `payload_len = 0`. Where the spec calls an output unspecified nothing is said (log entry 8). -/
def Obligations.OutputsShowRegisters : Prop :=
  ∀ (look : Nat) (s : State), ready s = s.complete ∧ outLen s = s.payloadLen ∧
    (∀ d, s.dest = some d → outDest look s = d) ∧
    (∀ (idx : Cur) (v : Byte), idx.toNat < 15 → s.buf.read idx.toNat = some v → bufData look idx s = v) ∧
    ((∀ i, i < s.payloadLen.toNat → 4 + i < 15 ∧ (s.buf.read (4 + i)).isSome = true) →
      outCsum look s = csum s s.payloadLen.toNat) ∧
    (s.payloadLen = 0#8 → outCsum look s = 0xFF#8)

/-- While a frame is complete and the caller issues neither `RESET` nor `DRAIN` nor `rst`, the step leaves every output that describes the
frame as it was, at any two looks (43_outputs_and_checksum.md R100). -/
def Obligations.ReadyWindowIsStable : Prop :=
  ∀ (s t : State) (look look' : Nat), Invariant s → s.complete = true → (nextInput s).rst = false →
    decodeWord (nextInput s).cmd ≠ .reset → decodeWord (nextInput s).cmd ≠ .drain → step s = .next t →
    ready t = true ∧ outDest look' t = outDest look s ∧ outLen t = outLen s ∧ outCsum look' t = outCsum look s ∧
      ∀ idx : Cur, idx.toNat ≤ 4 + (outLen s).toNat → bufData look' idx t = bufData look idx s

/-- No partial or corrupt frame is exposed as complete: while `complete = 1` the cells `0 .. total_len - 1` hold one well-formed frame,
and `out_csum` shows its trailer (40_accept.md R75, 10_state.md I7, which the spec marks as derived). -/
def Obligations.CompleteFrameIsWellFormed : Prop :=
  ∀ s : State, Invariant s → s.complete = true → ∃ bytes : List Byte,
    bytes.length = s.totalLen.toNat ∧ (∀ i, i < s.totalLen.toNat → bytes[i]? = s.buf.read i) ∧
    wellFormedFrame bytes = true ∧ ∀ look, some (outCsum look s) = s.buf.read (4 + s.payloadLen.toNat)

/-! ## Reset and the whole machine -/

/-- R130: the power-on state, its outputs, and that it is the idle state. -/
def Obligations.PowerOnState : Prop :=
  State.reset.cursor = 0#4 ∧ State.reset.totalLen = 0#4 ∧ State.reset.payloadLen = 0#8 ∧
    State.reset.complete = false ∧ State.reset.ts = 0#32 ∧ State.reset.dest = none ∧
    (∀ i, State.reset.buf.read i = none) ∧ phase State.reset = .idle ∧
    ready State.reset = false ∧ outLen State.reset = 0#8 ∧ ∀ look, outCsum look State.reset = 0xFF#8

/-- The invariant holds at the power-on state (10_state.md R25, which the spec marks as derived). -/
def Obligations.InvariantAtReset : Prop := Invariant State.reset

/-- Every step keeps the invariant: the buffer's canonical form within its 15 cells, and I1 to I8 (10_state.md R25, which the spec marks
as derived), whatever the inputs are. -/
def Obligations.StepKeepsInvariant : Prop :=
  ∀ s t : State, Invariant s → step s = .next t → Invariant t

/-- The machine is total: from every state that meets the invariant, whatever the input, the step goes on; it never faults and no
command is refused (44_state_machine.md R106, which the spec marks as derived). -/
def Obligations.StepAlwaysGoesOn : Prop :=
  ∀ s : State, Invariant s → ∃ t, step s = .next t

/-- The one way to stop, in states outside the invariant (log entry 7): only `ACCEPT` and `DRAIN` stop, with the index of a cell that
`BUF` does not have, and nothing is ever refused. -/
def Obligations.OnlyAbsentCellsStop : Prop :=
  ∀ (i : Instr) (s : State),
    (∀ r, exec i s ≠ .refused r) ∧
    ∀ r, exec i s = .fault r → (∃ n, 15 ≤ n ∧ r = .bufferIndex n) ∧ ¬ Invariant s ∧ (i = .drain ∨ ∃ data, i = .accept data)

/-- The state machine: from every state that meets the invariant, every command with every operand goes where the transition tables
R103, R104, R105 of 44_state_machine.md say and with their label (the tables are marked by the spec as derived). -/
def Obligations.ExecFollowsTransitionTable : Prop :=
  ∀ (i : Instr) (s : State), Invariant s → ∃ t, exec i s = .next t ∧ (phase t, t.event) = tableRow i s

/-- How the cursor advances (44_state_machine.md R107, which the spec marks as derived): by exactly one, by an `ACCEPT` that stores its
byte and keeps it; to 0; or not at all. -/
def Obligations.CursorAdvance : Prop :=
  ∀ (i : Instr) (s t : State), exec i s = .next t →
    (t.event = .noEvent ∧ s.complete = false ∨ t.event = .frameComplete →
      (∃ data, i = .accept data) → t.cursor.toNat = s.cursor.toNat + 1) ∧
    (t.event.resets = true ∨ i = .reset ∨ (i = .drain ∧ s.complete = true) → t.cursor = 0#4) ∧
    (t.cursor = s.cursor ∨ t.cursor = 0#4 ∨
      (t.cursor.toNat = s.cursor.toNat + 1 ∧ ∃ data, i = .accept data))

/-- Only `RESET` and `DRAIN` leave the complete state, and only an `ACCEPT` with label `FrameComplete` enters it (44_state_machine.md R105,
10_state.md R19). -/
def Obligations.CompleteIsEnteredAndLeft : Prop :=
  ∀ (i : Instr) (s t : State), exec i s = .next t →
    (s.complete = true → t.complete = false → i = .reset ∨ i = .drain) ∧
    (s.complete = false → t.complete = true → t.event = .frameComplete ∧ ∃ data, i = .accept data) ∧
    (t.event = .frameComplete → s.complete = false ∧ t.complete = true)

/-- While a frame is in progress `ts` is the time of the most recent `ACCEPT`: an `ACCEPT` that leaves a frame in progress records its
own time, and no other command that leaves one in progress changes `ts` (10_state.md I9, which the spec marks as derived). -/
def Obligations.TimestampOfLastAccept : Prop :=
  ∀ (i : Instr) (s t : State), exec i s = .next t → inProgress t →
    ((∃ data, i = .accept data) → t.ts = s.now) ∧
    ((∀ data, i ≠ .accept data) → t.ts = s.ts ∧ inProgress s)

/-- While the counter does not wrap: the premise `MonotoneClock`, the model's choice of a premise narrower than P2
(70_reset_and_hazards.md R135) in that it leaves out the wrap P2 allows (log entry 10), is kept by every step, and under it the
difference `now - ts` of the time a step samples for `ACCEPT` or `POLL` is the ordinary one. (Of the two only `POLL` uses the
difference, R77. With the wrap see `PremiseP2IsKept` and `PollMeasuresTrueTime`.) -/
def Obligations.MonotoneClockIsKept : Prop :=
  (∀ s t : State, MonotoneClock s → step s = .next t → MonotoneClock t) ∧
    ∀ (s : State) (inp : StepInput) (rest : List StepInput), MonotoneClock s → s.pending = inp :: rest →
      inp.rst = false → readsNow (decodeWord inp.cmd) = true →
      (elapsed (sample s)).toNat = inp.now.toNat - s.ts.toNat

/-- Stale cells and a stale `dest` make no difference (70_reset_and_hazards.md R132, which the spec marks as derived): two states alike in
the registers, the cells below `cursor` and the inputs to come step to alike states, with the same label, the same result and the same
`ready`, whatever the times last sampled were; and any two idle states with the same inputs to come are alike, the power-on state
among them. -/
def Obligations.AlikeStatesBehaveAlike : Prop :=
  (∀ s t : State, Invariant s → Invariant t → alike s t → ∃ s' t', step s = .next s' ∧ step t = .next t' ∧ alike s' t' ∧
    s'.event = t'.event ∧ s'.result = t'.result ∧ ready s' = ready t') ∧
    ∀ s t : State, Invariant s → Invariant t → isIdle s → isIdle t → s.pending = t.pending → alike s t

/-- The whole-frame property (40_accept.md R79, which the spec marks as derived): from any idle state, feeding the bytes of the frame with
any destination and any payload of 0 to 10 bytes, at any times, with no other input between, completes exactly that frame on the last
byte, with label None on every other. -/
def Obligations.WholeFrameIsDelivered : Prop :=
  ∀ (dest : Byte) (p : List Byte) (when : List Time) (rest : List StepInput) (s : State),
    Invariant s → isIdle s → p.length ≤ 10 → when.length = p.length + 5 →
    s.pending = List.zipWith acceptInput (frameBytes dest p) when ++ rest →
    (∃ t, run (p.length + 5) s = .next t ∧ t.event = .frameComplete ∧ t.complete = true ∧
      t.dest = some dest ∧ t.payloadLen.toNat = p.length ∧ (∀ i, i < p.length → t.buf.read (4 + i) = p[i]?) ∧
      t.pending = rest) ∧
    ∀ k, 1 ≤ k → k < p.length + 5 → ∃ u, run k s = .next u ∧ u.event = .noEvent ∧ u.complete = false

/-- Garbage before a frame does no harm (40_accept.md R76 (a), which the spec marks as derived): any run of non-sentinel bytes, at any
times, leaves the idle state idle with every cell and `dest` as they were, and the input after it is next. -/
def Obligations.GarbageLeavesIdle : Prop :=
  ∀ (garbage : List (Byte × Time)) (rest : List StepInput) (s : State),
    Invariant s → isIdle s → (∀ g ∈ garbage, g.1 ≠ 0xAA#8) →
    s.pending = garbage.map (fun g => acceptInput g.1 g.2) ++ rest →
    ∃ t, run garbage.length s = .next t ∧ isIdle t ∧ Invariant t ∧ t.pending = rest ∧
      t.buf = s.buf ∧ t.dest = s.dest ∧ (garbage ≠ [] → t.event = .framingError)

/-- A stray sentinel directly before a frame loses it (40_accept.md R76 (b), which the spec marks as derived): three sentinels from the idle
state, at any times, end in `CapacityViolation` and the idle state. -/
def Obligations.ThirdSentinelDiscards : Prop :=
  ∀ (t1 t2 t3 : Time) (rest : List StepInput) (s : State), Invariant s → isIdle s →
    s.pending = acceptInput 0xAA#8 t1 :: acceptInput 0xAA#8 t2 :: acceptInput 0xAA#8 t3 :: rest →
    ∃ t, run 3 s = .next t ∧ t.event = .capacityViolation ∧ phase t = .idle ∧ t.pending = rest

/-- P2 with the wrap of the counter (70_reset_and_hazards.md R135) is kept by every step: the counts behind the times still to come are the
end of those before it, and the count behind `ts` never goes back. The premise in this form is log entry 10. -/
def Obligations.PremiseP2IsKept : Prop :=
  (∀ (clock : List Nat) (since : Nat) (s t : State), PremiseP2 clock since s → step s = .next t →
    ∃ (clock' : List Nat) (since' : Nat), clock' <:+ clock ∧ since ≤ since' ∧ PremiseP2 clock' since' t) ∧
    ∀ s : State, MonotoneClock s → PremiseP2 ((times s.pending).map BitVec.toNat) s.ts.toNat s

/-- Under P2, a wrap of the counter included, `POLL` measures the true time (41_poll.md R83, 70_reset_and_hazards.md R142, which the spec
marks as derived): with `c` the count behind the time of this `POLL`, the difference is `c - since` modulo `2^32`, and as long as
less than `2^32` ms have passed, a frame in progress with `ts != 0` is discarded exactly when more than 1000 ms have. (After `2^32` ms
or more the difference aliases; the premise in this form is log entry 10.) -/
def Obligations.PollMeasuresTrueTime : Prop :=
  ∀ (c since : Nat) (clock : List Nat) (s : State) (inp : StepInput) (rest : List StepInput),
    PremiseP2 (c :: clock) since s → s.pending = inp :: rest → inp.rst = false → decodeWord inp.cmd = .poll →
    s.complete = false → s.ts ≠ 0#32 →
    (elapsed (sample s)).toNat = (c - since) % 2 ^ 32 ∧
    (c - since < 2 ^ 32 → ∃ t, step s = .next t ∧
      (1000 < c - since → t.event = .timeout ∧ phase t = .idle) ∧
      (c - since ≤ 1000 → t.event = .noEvent ∧ t.toBlock = s.toBlock))

/-- The seven items of `Block` are the block's whole state (10_state.md R13, R27): two states with the same block, the same input sampled
next and the same step counter step to the same block, with the same label and the same result, or stop alike, whatever else stands
around the block. (The step counter only draws free values, log entry 6.) -/
def Obligations.BlockIsTheWholeState : Prop :=
  ∀ s t : State, s.toBlock = t.toBlock → nextInput s = nextInput t → s.stepCount = t.stepCount →
    (∀ s', step s = .next s' → ∃ t', step t = .next t' ∧ t'.toBlock = s'.toBlock ∧ t'.event = s'.event ∧
      t'.result = s'.result) ∧
    ∀ r, step s = .fault r → step t = .fault r
end

