-- ==== Sys2Proof/Laws/Config.lean ====
section
/-! SUPPORT. The values of this hardware's constants (00_scope.md R6, R7), as rewriting rules. -/

namespace Sys2Proof

@[simp] theorem Config.sentinel_eq : Config.sentinel = 0xAA#8 := rfl
@[simp] theorem Config.hdr_eq : Config.hdr = 4 := rfl
@[simp] theorem Config.overhead_eq : Config.overhead = 5 := rfl
@[simp] theorem Config.maxFrame_eq : Config.maxFrame = 15 := rfl
@[simp] theorem Config.maxPayload_eq : Config.maxPayload = 10 := rfl
@[simp] theorem Config.timeoutMs_eq : Config.timeoutMs = 1000 := rfl

@[simp] theorem cmdWordFits_iff (w : Nat) : cmdWordFits w = true ↔ w < 2048 :=
  decide_eq_true_iff (p := w < 2 ^ Config.params.cmdW)

end Sys2Proof
end

