-- ==== Sys2Proof/Laws/PerInstr.lean ====
section
/-! SUPPORT. Statements made of each command as syntax, one lemma per constructor: the word a command assembles to is the table's `match`
under the table's `mask`, and the match of no other row (30_encoding.md R55, opcode_table.json). -/

namespace Sys2Proof.Laws.TableMatch

/-- The word of `i` under the mask `0x700` is its row's match, and a row with that match is `i`'s row. -/
def Statement (i : Instr) : Prop :=
  encode i &&& rowMask = rowMatch i ∧ ∀ j, rowMatch j = rowMatch i → opcode j = opcode i

/-- The word `{op, data}` under the mask keeps `op` alone. -/
theorem mkWord_masked (op : BitVec 3) (data : Byte) : mkWord op data &&& rowMask = mkWord op 0x00#8 := by
  revert op data
  decide +revert

theorem rows_apart {i j : Instr} (h : rowMatch j = rowMatch i) : opcode j = opcode i := by
  cases i <;> cases j <;> first | rfl | (exact absurd h (by simp [rowMatch]))

theorem nop : Statement .nop := ⟨mkWord_masked _ _, fun _ => rows_apart⟩
theorem accept (data : Byte) : Statement (.accept data) := ⟨mkWord_masked 0b001#3 data, fun _ => rows_apart⟩
theorem poll : Statement .poll := ⟨mkWord_masked _ _, fun _ => rows_apart⟩
theorem reset : Statement .reset := ⟨mkWord_masked _ _, fun _ => rows_apart⟩
theorem drain : Statement .drain := ⟨mkWord_masked _ _, fun _ => rows_apart⟩
theorem reserved101 : Statement .reserved101 := ⟨mkWord_masked _ _, fun _ => rows_apart⟩
theorem reserved110 : Statement .reserved110 := ⟨mkWord_masked _ _, fun _ => rows_apart⟩
theorem reserved111 : Statement .reserved111 := ⟨mkWord_masked _ _, fun _ => rows_apart⟩

end Sys2Proof.Laws.TableMatch
end

