-- ==== Sys2Proof/Laws/Decode.lean ====
section
/-! SUPPORT. The command word as its two fields, and decoding read off them (30_encoding.md R54, R55). -/

namespace Sys2Proof

@[simp] theorem opField_mkWord (op : BitVec 3) (data : Byte) : opField (mkWord op data) = op := by
  revert op data
  decide +revert

@[simp] theorem dataField_mkWord (op : BitVec 3) (data : Byte) : dataField (mkWord op data) = data := by
  revert op data
  decide +revert

/-- A command word is its two fields. -/
theorem mkWord_fields (w : CmdWord) : mkWord (opField w) (dataField w) = w := by
  revert w
  decide +revert

@[simp] theorem decodeWord_mkWord (op : BitVec 3) (data : Byte) : decodeWord (mkWord op data) = decodeFields op data := by
  simp [decodeWord]

/-- A command assembles to a word that decodes to it. -/
theorem decodeFields_encode (i : Instr) : decodeFields (opcode i) (dataOf i) = i := by
  cases i <;> rfl

/-- Each `op` value, by cases. -/
theorem op_cases {P : BitVec 3 → Prop} (h0 : P 0#3) (h1 : P 1#3) (h2 : P 2#3) (h3 : P 3#3) (h4 : P 4#3) (h5 : P 5#3)
    (h6 : P 6#3) (h7 : P 7#3) (op : BitVec 3) : P op := by
  have h : ∀ op : BitVec 3, op = 0#3 ∨ op = 1#3 ∨ op = 2#3 ∨ op = 3#3 ∨ op = 4#3 ∨ op = 5#3 ∨ op = 6#3 ∨ op = 7#3 := by
    decide
  rcases h op with rfl | rfl | rfl | rfl | rfl | rfl | rfl | rfl <;> assumption

/-- A word of `ACCEPT` as the step reads it. -/
@[simp] theorem decodeWord_encode_accept (data : Byte) : decodeWord (encode (.accept data)) = .accept data := by
  simp [encode, opcode, dataOf, decodeFields]

end Sys2Proof
end

