-- ==== Sys2Proof/Laws/Memory.lean ====
section
/-! SUPPORT. The laws of the buffer: what a read gives after a write, and the canonical form. -/

namespace Sys2Proof.Machine

@[simp] theorem Memory.read_nil (i : Nat) : Memory.read [] i = none := rfl

/-- A read of the cell just written gives the byte written. -/
@[simp] theorem Memory.read_write_same (m : Memory) (i : Nat) (v : Byte) : (m.write i v).read i = some v := by
  induction m with
  | nil => simp [Memory.write, Memory.read]
  | cons c m ih =>
    unfold Memory.write
    split
    · simp [Memory.read]
    · split
      · simp [Memory.read]
      · rename_i h1 h2
        simp [Memory.read, Ne.symm h2, ih]

/-- A write leaves every other cell alone. -/
theorem Memory.read_write_ne (m : Memory) {i j : Nat} (v : Byte) (h : j ≠ i) : (m.write i v).read j = m.read j := by
  induction m with
  | nil => simp [Memory.write, Memory.read, Ne.symm h]
  | cons c m ih =>
    unfold Memory.write
    split
    · simp [Memory.read, Ne.symm h]
    · split
      · rename_i h2
        subst h2
        simp [Memory.read, Ne.symm h]
      · simp [Memory.read, ih]

/-- A read after a write, in one equation. -/
theorem Memory.read_write (m : Memory) (i j : Nat) (v : Byte) :
    (m.write i v).read j = if j = i then some v else m.read j := by
  split
  · subst_vars; exact Memory.read_write_same m _ v
  · exact Memory.read_write_ne m v ‹_›

/-- Every entry after a write is the one written or an old one. -/
theorem Memory.mem_write {m : Memory} {i : Nat} {v : Byte} {c : Host.Cell} (h : c ∈ m.write i v) :
    c = (i, v) ∨ c ∈ m := by
  induction m with
  | nil => simpa [Memory.write] using h
  | cons d m ih =>
    unfold Memory.write at h
    split at h
    · simpa using h
    · split at h
      · rcases List.mem_cons.1 h with h | h
        · exact .inl h
        · exact .inr (List.mem_cons_of_mem _ h)
      · rcases List.mem_cons.1 h with h | h
        · exact .inr (h ▸ List.mem_cons_self)
        · exact (ih h).imp id (List.mem_cons_of_mem _)

/-- The empty buffer is in canonical form. -/
theorem Memory.wf_nil : Memory.wf [] := by simp [Memory.wf]

/-- A write to a cell that exists keeps the canonical form. -/
theorem Memory.wf_write {m : Memory} {i : Nat} (v : Byte) (h : m.wf) (hi : i < Config.maxFrame) : (m.write i v).wf := by
  refine ⟨?_, ?_⟩
  · obtain ⟨hs, -⟩ := h
    induction m with
    | nil => simp [Memory.write]
    | cons c m ih =>
      have hc := List.pairwise_cons.1 hs
      unfold Memory.write
      split
      · rename_i hlt
        refine List.pairwise_cons.2 ⟨?_, hs⟩
        intro d hd
        rcases List.mem_cons.1 hd with rfl | hd
        · exact hlt
        · exact Nat.lt_trans hlt (hc.1 d hd)
      · split
        · rename_i heq
          exact List.pairwise_cons.2 ⟨fun d hd => heq ▸ hc.1 d hd, hc.2⟩
        · rename_i h1 h2
          refine List.pairwise_cons.2 ⟨?_, ih hc.2⟩
          intro d hd
          rcases Memory.mem_write hd with rfl | hd
          · exact Nat.lt_of_le_of_ne (Nat.le_of_not_lt h1) (Ne.symm h2)
          · exact hc.1 d hd
  · intro c hc
    rcases Memory.mem_write hc with rfl | hc
    · exact hi
    · exact h.2 c hc

/-- A cell listed exists: in canonical form no cell at `MAX_FRAME` or above holds a value. -/
theorem Memory.read_outside {m : Memory} {i : Nat} (h : m.wf) (hi : Config.maxFrame ≤ i) : m.read i = none := by
  obtain ⟨-, hb⟩ := h
  induction m with
  | nil => rfl
  | cons c m ih =>
    have hc := hb c List.mem_cons_self
    unfold Memory.read
    rw [if_neg (by omega)]
    exact ih (fun d hd => hb d (List.mem_cons_of_mem _ hd))

/-- Two buffers in canonical form that read alike are equal data. -/
theorem Memory.ext_of_wf {m n : Memory} (hm : m.wf) (hn : n.wf) (h : ∀ i, m.read i = n.read i) : m = n := by
  obtain ⟨hm, -⟩ := hm
  obtain ⟨hn, -⟩ := hn
  have below : ∀ (l : Memory) (i : Nat), (∀ c ∈ l, i < c.1) → l.read i = none := by
    intro l i hl
    induction l with
    | nil => rfl
    | cons c l ih =>
      have hc := hl c List.mem_cons_self
      unfold Memory.read
      rw [if_neg (by omega)]
      exact ih (fun d hd => hl d (List.mem_cons_of_mem _ hd))
  induction m generalizing n with
  | nil =>
    cases n with
    | nil => rfl
    | cons d n => simpa [Memory.read] using h d.1
  | cons c m ih =>
    have hc := List.pairwise_cons.1 hm
    cases n with
    | nil => simpa [Memory.read] using h c.1
    | cons d n =>
      have hd := List.pairwise_cons.1 hn
      have key : c.1 = d.1 := by
        rcases Nat.lt_trichotomy c.1 d.1 with hlt | heq | hgt
        · have := h c.1
          rw [below (d :: n) c.1 (by
            intro e he
            rcases List.mem_cons.1 he with rfl | he
            · exact hlt
            · exact Nat.lt_trans hlt (hd.1 e he))] at this
          simp [Memory.read] at this
        · exact heq
        · have := h d.1
          rw [below (c :: m) d.1 (by
            intro e he
            rcases List.mem_cons.1 he with rfl | he
            · exact hgt
            · exact Nat.lt_trans hgt (hc.1 e he))] at this
          simp [Memory.read] at this
      have hv : c.2 = d.2 := by
        have := h c.1
        simpa [Memory.read, key] using this
      have hcd : c = d := Prod.ext key hv
      subst hcd
      congr 1
      refine ih ?_ hc.2 hd.2
      intro i
      have hi := h i
      by_cases hic : c.1 = i
      · subst hic
        rw [below m c.1 hc.1, below n c.1 hd.1]
      · simpa [Memory.read, hic] using hi

end Sys2Proof.Machine
end

