-- ==== Sys2Proof/Laws/State.lean ====
section
/-! SUPPORT. One lemma per field per update of the state, so that no proof unfolds a record update. -/

namespace Sys2Proof.Machine

@[simp] theorem writeBuf_buf (i : Nat) (v : Byte) (s : State) : (writeBuf i v s).buf = s.buf.write i v := rfl
@[simp] theorem writeBuf_cursor (i : Nat) (v : Byte) (s : State) : (writeBuf i v s).cursor = s.cursor := rfl
@[simp] theorem writeBuf_totalLen (i : Nat) (v : Byte) (s : State) : (writeBuf i v s).totalLen = s.totalLen := rfl
@[simp] theorem writeBuf_payloadLen (i : Nat) (v : Byte) (s : State) : (writeBuf i v s).payloadLen = s.payloadLen := rfl
@[simp] theorem writeBuf_dest (i : Nat) (v : Byte) (s : State) : (writeBuf i v s).dest = s.dest := rfl
@[simp] theorem writeBuf_complete (i : Nat) (v : Byte) (s : State) : (writeBuf i v s).complete = s.complete := rfl
@[simp] theorem writeBuf_ts (i : Nat) (v : Byte) (s : State) : (writeBuf i v s).ts = s.ts := rfl
@[simp] theorem writeBuf_now (i : Nat) (v : Byte) (s : State) : (writeBuf i v s).now = s.now := rfl
@[simp] theorem writeBuf_pending (i : Nat) (v : Byte) (s : State) : (writeBuf i v s).pending = s.pending := rfl
@[simp] theorem writeBuf_event (i : Nat) (v : Byte) (s : State) : (writeBuf i v s).event = s.event := rfl
@[simp] theorem writeBuf_result (i : Nat) (v : Byte) (s : State) : (writeBuf i v s).result = s.result := rfl
@[simp] theorem writeBuf_stepCount (i : Nat) (v : Byte) (s : State) : (writeBuf i v s).stepCount = s.stepCount := rfl

@[simp] theorem stampTime_buf (s : State) : (stampTime s).buf = s.buf := rfl
@[simp] theorem stampTime_cursor (s : State) : (stampTime s).cursor = s.cursor := rfl
@[simp] theorem stampTime_totalLen (s : State) : (stampTime s).totalLen = s.totalLen := rfl
@[simp] theorem stampTime_payloadLen (s : State) : (stampTime s).payloadLen = s.payloadLen := rfl
@[simp] theorem stampTime_dest (s : State) : (stampTime s).dest = s.dest := rfl
@[simp] theorem stampTime_complete (s : State) : (stampTime s).complete = s.complete := rfl
@[simp] theorem stampTime_ts (s : State) : (stampTime s).ts = s.now := rfl
@[simp] theorem stampTime_now (s : State) : (stampTime s).now = s.now := rfl
@[simp] theorem stampTime_pending (s : State) : (stampTime s).pending = s.pending := rfl
@[simp] theorem stampTime_event (s : State) : (stampTime s).event = s.event := rfl
@[simp] theorem stampTime_result (s : State) : (stampTime s).result = s.result := rfl
@[simp] theorem stampTime_stepCount (s : State) : (stampTime s).stepCount = s.stepCount := rfl

@[simp] theorem advanceCursor_buf (s : State) : (advanceCursor s).buf = s.buf := rfl
@[simp] theorem advanceCursor_cursor (s : State) : (advanceCursor s).cursor = BitVec.ofNat 4 (s.cursor.toNat + 1) := rfl
@[simp] theorem advanceCursor_totalLen (s : State) : (advanceCursor s).totalLen = s.totalLen := rfl
@[simp] theorem advanceCursor_payloadLen (s : State) : (advanceCursor s).payloadLen = s.payloadLen := rfl
@[simp] theorem advanceCursor_dest (s : State) : (advanceCursor s).dest = s.dest := rfl
@[simp] theorem advanceCursor_complete (s : State) : (advanceCursor s).complete = s.complete := rfl
@[simp] theorem advanceCursor_ts (s : State) : (advanceCursor s).ts = s.ts := rfl
@[simp] theorem advanceCursor_now (s : State) : (advanceCursor s).now = s.now := rfl
@[simp] theorem advanceCursor_pending (s : State) : (advanceCursor s).pending = s.pending := rfl
@[simp] theorem advanceCursor_event (s : State) : (advanceCursor s).event = s.event := rfl
@[simp] theorem advanceCursor_result (s : State) : (advanceCursor s).result = s.result := rfl
@[simp] theorem advanceCursor_stepCount (s : State) : (advanceCursor s).stepCount = s.stepCount := rfl

@[simp] theorem setLengths_buf (data : Byte) (s : State) : (setLengths data s).buf = s.buf := rfl
@[simp] theorem setLengths_cursor (data : Byte) (s : State) : (setLengths data s).cursor = s.cursor := rfl
@[simp] theorem setLengths_totalLen (data : Byte) (s : State) : (setLengths data s).totalLen = BitVec.ofNat 4 (data.toNat + Config.overhead) := rfl
@[simp] theorem setLengths_payloadLen (data : Byte) (s : State) : (setLengths data s).payloadLen = data := rfl
@[simp] theorem setLengths_dest (data : Byte) (s : State) : (setLengths data s).dest = s.dest := rfl
@[simp] theorem setLengths_complete (data : Byte) (s : State) : (setLengths data s).complete = s.complete := rfl
@[simp] theorem setLengths_ts (data : Byte) (s : State) : (setLengths data s).ts = s.ts := rfl
@[simp] theorem setLengths_now (data : Byte) (s : State) : (setLengths data s).now = s.now := rfl
@[simp] theorem setLengths_pending (data : Byte) (s : State) : (setLengths data s).pending = s.pending := rfl
@[simp] theorem setLengths_event (data : Byte) (s : State) : (setLengths data s).event = s.event := rfl
@[simp] theorem setLengths_result (data : Byte) (s : State) : (setLengths data s).result = s.result := rfl
@[simp] theorem setLengths_stepCount (data : Byte) (s : State) : (setLengths data s).stepCount = s.stepCount := rfl

@[simp] theorem setDest_buf (data : Byte) (s : State) : (setDest data s).buf = s.buf := rfl
@[simp] theorem setDest_cursor (data : Byte) (s : State) : (setDest data s).cursor = s.cursor := rfl
@[simp] theorem setDest_totalLen (data : Byte) (s : State) : (setDest data s).totalLen = s.totalLen := rfl
@[simp] theorem setDest_payloadLen (data : Byte) (s : State) : (setDest data s).payloadLen = s.payloadLen := rfl
@[simp] theorem setDest_dest (data : Byte) (s : State) : (setDest data s).dest = some data := rfl
@[simp] theorem setDest_complete (data : Byte) (s : State) : (setDest data s).complete = s.complete := rfl
@[simp] theorem setDest_ts (data : Byte) (s : State) : (setDest data s).ts = s.ts := rfl
@[simp] theorem setDest_now (data : Byte) (s : State) : (setDest data s).now = s.now := rfl
@[simp] theorem setDest_pending (data : Byte) (s : State) : (setDest data s).pending = s.pending := rfl
@[simp] theorem setDest_event (data : Byte) (s : State) : (setDest data s).event = s.event := rfl
@[simp] theorem setDest_result (data : Byte) (s : State) : (setDest data s).result = s.result := rfl
@[simp] theorem setDest_stepCount (data : Byte) (s : State) : (setDest data s).stepCount = s.stepCount := rfl

@[simp] theorem markComplete_buf (s : State) : (markComplete s).buf = s.buf := rfl
@[simp] theorem markComplete_cursor (s : State) : (markComplete s).cursor = s.cursor := rfl
@[simp] theorem markComplete_totalLen (s : State) : (markComplete s).totalLen = s.totalLen := rfl
@[simp] theorem markComplete_payloadLen (s : State) : (markComplete s).payloadLen = s.payloadLen := rfl
@[simp] theorem markComplete_dest (s : State) : (markComplete s).dest = s.dest := rfl
@[simp] theorem markComplete_complete (s : State) : (markComplete s).complete = true := rfl
@[simp] theorem markComplete_ts (s : State) : (markComplete s).ts = 0#32 := rfl
@[simp] theorem markComplete_now (s : State) : (markComplete s).now = s.now := rfl
@[simp] theorem markComplete_pending (s : State) : (markComplete s).pending = s.pending := rfl
@[simp] theorem markComplete_event (s : State) : (markComplete s).event = s.event := rfl
@[simp] theorem markComplete_result (s : State) : (markComplete s).result = s.result := rfl
@[simp] theorem markComplete_stepCount (s : State) : (markComplete s).stepCount = s.stepCount := rfl

@[simp] theorem finish_buf (e : Event) (r : Option Frame) (s : State) : (finish e r s).buf = s.buf := rfl
@[simp] theorem finish_cursor (e : Event) (r : Option Frame) (s : State) : (finish e r s).cursor = s.cursor := rfl
@[simp] theorem finish_totalLen (e : Event) (r : Option Frame) (s : State) : (finish e r s).totalLen = s.totalLen := rfl
@[simp] theorem finish_payloadLen (e : Event) (r : Option Frame) (s : State) : (finish e r s).payloadLen = s.payloadLen := rfl
@[simp] theorem finish_dest (e : Event) (r : Option Frame) (s : State) : (finish e r s).dest = s.dest := rfl
@[simp] theorem finish_complete (e : Event) (r : Option Frame) (s : State) : (finish e r s).complete = s.complete := rfl
@[simp] theorem finish_ts (e : Event) (r : Option Frame) (s : State) : (finish e r s).ts = s.ts := rfl
@[simp] theorem finish_now (e : Event) (r : Option Frame) (s : State) : (finish e r s).now = s.now := rfl
@[simp] theorem finish_pending (e : Event) (r : Option Frame) (s : State) : (finish e r s).pending = s.pending := rfl
@[simp] theorem finish_event (e : Event) (r : Option Frame) (s : State) : (finish e r s).event = e := rfl
@[simp] theorem finish_result (e : Event) (r : Option Frame) (s : State) : (finish e r s).result = r := rfl
@[simp] theorem finish_stepCount (e : Event) (r : Option Frame) (s : State) : (finish e r s).stepCount = s.stepCount := rfl

@[simp] theorem coreReset_buf (s : State) : (coreReset s).buf = s.buf := rfl
@[simp] theorem coreReset_cursor (s : State) : (coreReset s).cursor = 0#4 := rfl
@[simp] theorem coreReset_totalLen (s : State) : (coreReset s).totalLen = 0#4 := rfl
@[simp] theorem coreReset_payloadLen (s : State) : (coreReset s).payloadLen = 0#8 := rfl
@[simp] theorem coreReset_dest (s : State) : (coreReset s).dest = s.dest := rfl
@[simp] theorem coreReset_complete (s : State) : (coreReset s).complete = false := rfl
@[simp] theorem coreReset_ts (s : State) : (coreReset s).ts = 0#32 := rfl
@[simp] theorem coreReset_now (s : State) : (coreReset s).now = s.now := rfl
@[simp] theorem coreReset_pending (s : State) : (coreReset s).pending = s.pending := rfl
@[simp] theorem coreReset_event (s : State) : (coreReset s).event = s.event := rfl
@[simp] theorem coreReset_result (s : State) : (coreReset s).result = s.result := rfl
@[simp] theorem coreReset_stepCount (s : State) : (coreReset s).stepCount = s.stepCount := rfl

@[simp] theorem raise_buf (e : Event) (s : State) : (raise e s).buf = s.buf := rfl
@[simp] theorem raise_cursor (e : Event) (s : State) : (raise e s).cursor = 0#4 := rfl
@[simp] theorem raise_totalLen (e : Event) (s : State) : (raise e s).totalLen = 0#4 := rfl
@[simp] theorem raise_payloadLen (e : Event) (s : State) : (raise e s).payloadLen = 0#8 := rfl
@[simp] theorem raise_dest (e : Event) (s : State) : (raise e s).dest = s.dest := rfl
@[simp] theorem raise_complete (e : Event) (s : State) : (raise e s).complete = false := rfl
@[simp] theorem raise_ts (e : Event) (s : State) : (raise e s).ts = 0#32 := rfl
@[simp] theorem raise_now (e : Event) (s : State) : (raise e s).now = s.now := rfl
@[simp] theorem raise_pending (e : Event) (s : State) : (raise e s).pending = s.pending := rfl
@[simp] theorem raise_event (e : Event) (s : State) : (raise e s).event = e := rfl
@[simp] theorem raise_result (e : Event) (s : State) : (raise e s).result = none := rfl
@[simp] theorem raise_stepCount (e : Event) (s : State) : (raise e s).stepCount = s.stepCount := rfl

@[simp] theorem powerOn_buf (s : State) : (powerOn s).buf = [] := rfl
@[simp] theorem powerOn_cursor (s : State) : (powerOn s).cursor = 0#4 := rfl
@[simp] theorem powerOn_totalLen (s : State) : (powerOn s).totalLen = 0#4 := rfl
@[simp] theorem powerOn_payloadLen (s : State) : (powerOn s).payloadLen = 0#8 := rfl
@[simp] theorem powerOn_dest (s : State) : (powerOn s).dest = none := rfl
@[simp] theorem powerOn_complete (s : State) : (powerOn s).complete = false := rfl
@[simp] theorem powerOn_ts (s : State) : (powerOn s).ts = 0#32 := rfl
@[simp] theorem powerOn_now (s : State) : (powerOn s).now = s.now := rfl
@[simp] theorem powerOn_pending (s : State) : (powerOn s).pending = s.pending := rfl
@[simp] theorem powerOn_event (s : State) : (powerOn s).event = .noEvent := rfl
@[simp] theorem powerOn_result (s : State) : (powerOn s).result = none := rfl
@[simp] theorem powerOn_stepCount (s : State) : (powerOn s).stepCount = s.stepCount := rfl

@[simp] theorem sample_buf (s : State) : (sample s).buf = s.buf := rfl
@[simp] theorem sample_cursor (s : State) : (sample s).cursor = s.cursor := rfl
@[simp] theorem sample_totalLen (s : State) : (sample s).totalLen = s.totalLen := rfl
@[simp] theorem sample_payloadLen (s : State) : (sample s).payloadLen = s.payloadLen := rfl
@[simp] theorem sample_dest (s : State) : (sample s).dest = s.dest := rfl
@[simp] theorem sample_complete (s : State) : (sample s).complete = s.complete := rfl
@[simp] theorem sample_ts (s : State) : (sample s).ts = s.ts := rfl
@[simp] theorem sample_now (s : State) : (sample s).now = (nextInput s).now := rfl
@[simp] theorem sample_pending (s : State) : (sample s).pending = s.pending.tail := rfl
@[simp] theorem sample_event (s : State) : (sample s).event = s.event := rfl
@[simp] theorem sample_result (s : State) : (sample s).result = s.result := rfl
@[simp] theorem sample_stepCount (s : State) : (sample s).stepCount = s.stepCount + 1 := rfl

@[simp] theorem present_buf (i : StepInput) (s : State) : (present i s).buf = s.buf := rfl
@[simp] theorem present_cursor (i : StepInput) (s : State) : (present i s).cursor = s.cursor := rfl
@[simp] theorem present_totalLen (i : StepInput) (s : State) : (present i s).totalLen = s.totalLen := rfl
@[simp] theorem present_payloadLen (i : StepInput) (s : State) : (present i s).payloadLen = s.payloadLen := rfl
@[simp] theorem present_dest (i : StepInput) (s : State) : (present i s).dest = s.dest := rfl
@[simp] theorem present_complete (i : StepInput) (s : State) : (present i s).complete = s.complete := rfl
@[simp] theorem present_ts (i : StepInput) (s : State) : (present i s).ts = s.ts := rfl
@[simp] theorem present_now (i : StepInput) (s : State) : (present i s).now = s.now := rfl
@[simp] theorem present_pending (i : StepInput) (s : State) : (present i s).pending = i :: s.pending := rfl
@[simp] theorem present_event (i : StepInput) (s : State) : (present i s).event = s.event := rfl
@[simp] theorem present_result (i : StepInput) (s : State) : (present i s).result = s.result := rfl
@[simp] theorem present_stepCount (i : StepInput) (s : State) : (present i s).stepCount = s.stepCount := rfl

end Sys2Proof.Machine
end

