-- ==== Sys2Proof/Laws/Ops.lean ====
section
/-! SUPPORT. What each shared operation can do, said once: "if it answers a next state, then one of these cases holds". -/

namespace Sys2Proof.Machine

@[simp] theorem inBuf_iff (i : Nat) : inBuf i = true ↔ i < 15 :=
  decide_eq_true_iff (p := i < Config.maxFrame)

@[simp] theorem andThen_next (s : State) (f : State → Result) : andThen (.next s) f = f s := rfl
@[simp] theorem andThen_fault (r : Fault) (f : State → Result) : andThen (.fault r) f = .fault r := rfl
@[simp] theorem andThen_refused (r : Refusal) (f : State → Result) : andThen (.refused r) f = .refused r := rfl

/-- A sequence goes on exactly when both parts do. -/
theorem andThen_eq_next {o : Result} {f : State → Result} {t : State} :
    andThen o f = .next t ↔ ∃ u, o = .next u ∧ f u = .next t := by
  cases o <;> simp

/-- A cell that holds a value is read as that value. -/
theorem readCell_of_some {s : State} {i : Nat} {v : Byte} (h : s.buf.read i = some v) : readCell s i = v := by
  simp [readCell, h]

/-- The checksum depends on the payload cells alone. -/
theorem sumCells_congr {s t : State} {n : Nat} (h : ∀ i, i < n → readCell s (payloadIndex i) = readCell t (payloadIndex i)) :
    sumCells s n = sumCells t n := by
  induction n with
  | zero => rfl
  | succ n ih =>
    simp only [sumCells]
    rw [ih (fun i hi => h i (Nat.lt_succ_of_lt hi)), h n (Nat.lt_succ_self n)]

theorem csum_congr {s t : State} {n : Nat} (h : ∀ i, i < n → readCell s (payloadIndex i) = readCell t (payloadIndex i)) :
    csum s n = csum t n := by
  simp only [csum, sumCells_congr h]

/-- The checksum of no payload (R97). -/
@[simp] theorem csum_zero (s : State) : csum s 0 = 0xFF#8 := by
  simp [csum, sumCells]

/-- The state an `ACCEPT` stores into: the byte in its cell and the cursor one further. -/
def stored (data : Byte) (s : State) : State := advanceCursor (writeBuf (storeIndex s) data s)

@[simp] theorem stored_buf (data : Byte) (s : State) : (stored data s).buf = s.buf.write s.cursor.toNat data := rfl
@[simp] theorem stored_cursor (data : Byte) (s : State) :
    (stored data s).cursor = BitVec.ofNat 4 (s.cursor.toNat + 1) := rfl
@[simp] theorem stored_totalLen (data : Byte) (s : State) : (stored data s).totalLen = s.totalLen := rfl
@[simp] theorem stored_payloadLen (data : Byte) (s : State) : (stored data s).payloadLen = s.payloadLen := rfl
@[simp] theorem stored_dest (data : Byte) (s : State) : (stored data s).dest = s.dest := rfl
@[simp] theorem stored_complete (data : Byte) (s : State) : (stored data s).complete = s.complete := rfl
@[simp] theorem stored_ts (data : Byte) (s : State) : (stored data s).ts = s.ts := rfl
@[simp] theorem stored_now (data : Byte) (s : State) : (stored data s).now = s.now := rfl
@[simp] theorem stored_pending (data : Byte) (s : State) : (stored data s).pending = s.pending := rfl
@[simp] theorem stored_event (data : Byte) (s : State) : (stored data s).event = s.event := rfl
@[simp] theorem stored_result (data : Byte) (s : State) : (stored data s).result = s.result := rfl
@[simp] theorem stored_stepCount (data : Byte) (s : State) : (stored data s).stepCount = s.stepCount := rfl

/-- The cursor after a store, as a number. -/
theorem stored_cursor_toNat {data : Byte} {s : State} (h : s.cursor.toNat < 15) :
    (stored data s).cursor.toNat = s.cursor.toNat + 1 := by
  simp only [stored_cursor, BitVec.toNat_ofNat]
  omega

/-- Storing a byte needs the cell to exist, and does nothing else than write it and advance the cursor. -/
theorem storeByte_eq_next {data : Byte} {s t : State} :
    storeByte data s = .next t ↔ s.cursor.toNat < 15 ∧ t = stored data s := by
  unfold storeByte
  split
  · rename_i h
    have h : s.cursor.toNat < 15 := (inBuf_iff _).1 h
    exact ⟨fun e => ⟨h, (Host.Outcome.next.inj e).symm⟩, fun e => e.2 ▸ rfl⟩
  · rename_i h
    exact ⟨fun e => (nomatch e), fun e => absurd ((inBuf_iff _).2 e.1) h⟩

/-- Storing a byte where the cell exists. -/
theorem storeByte_of_lt {data : Byte} {s : State} (h : s.cursor.toNat < 15) : storeByte data s = .next (stored data s) :=
  storeByte_eq_next.2 ⟨h, rfl⟩

/-- The completion check: not filled, and nothing more happens; filled, and the frame completes or is discarded. -/
theorem completionCheck_cases {s t : State} (h : completionCheck s = .next t) :
    (frameFilled s = false ∧ t = finish .noEvent none s) ∨
      (frameFilled s = true ∧ trailerIndex s < 15 ∧ checksumMatches s = true ∧
        t = finish .frameComplete none (markComplete s)) ∨
      (frameFilled s = true ∧ trailerIndex s < 15 ∧ checksumMatches s = false ∧ t = raise .checksumFailure s) := by
  unfold completionCheck at h
  split at h
  · split at h
    · split at h
      · cases h; simp_all
      · cases h; simp_all
    · cases h
  · cases h; simp_all

/-- The completion check of a frame not yet filled. -/
theorem completionCheck_of_not_filled {s : State} (h : frameFilled s = false) :
    completionCheck s = .next (finish .noEvent none s) := by
  simp [completionCheck, h]

/-- `POLL` discards or does nothing. -/
theorem execPoll_cases {s t : State} (h : execPoll s = .next t) :
    (watchdogFires s = true ∧ t = raise .timeout s) ∨ (watchdogFires s = false ∧ t = finish .noEvent none s) := by
  unfold execPoll at h
  split at h <;> cases h <;> simp_all

/-- `DRAIN` delivers and resets, or does nothing. -/
theorem execDrain_cases {s t : State} (h : execDrain s = .next t) :
    (s.complete = true ∧ payloadInBuf s = true ∧ t = finish .noEvent (some (drainFrame s)) (coreReset s)) ∨
      (s.complete = false ∧ t = finish .noEvent none s) := by
  unfold execDrain at h
  split at h
  · split at h
    · cases h; simp_all
    · cases h
  · cases h; simp_all

/-- The state an arm of `ACCEPT` stores into, before the byte is stored: the length arm has set the lengths, the destination arm
`dest`. -/
def armState (data : Byte) (s : State) : State :=
  if s.cursor.toNat = 2 then setLengths data (stampTime s)
  else if s.cursor.toNat = 3 then setDest data (stampTime s)
  else stampTime s

theorem armState_two {data : Byte} {s : State} (h : s.cursor.toNat = 2) :
    armState data s = setLengths data (stampTime s) := if_pos h

theorem armState_three {data : Byte} {s : State} (h : s.cursor.toNat = 3) :
    armState data s = setDest data (stampTime s) := by
  rw [armState, if_neg (by omega), if_pos h]

theorem armState_other {data : Byte} {s : State} (h2 : s.cursor.toNat ≠ 2) (h3 : s.cursor.toNat ≠ 3) :
    armState data s = stampTime s := by
  rw [armState, if_neg h2, if_neg h3]

/-- The arms leave everything but `ts`, the lengths (at position 2) and `dest` (at position 3) as they were. -/
theorem armState_spec (data : Byte) (s : State) :
    (armState data s).buf = s.buf ∧ (armState data s).cursor = s.cursor ∧ (armState data s).complete = s.complete ∧
      (armState data s).ts = s.now ∧ (armState data s).now = s.now ∧ (armState data s).pending = s.pending ∧
      (armState data s).stepCount = s.stepCount ∧
      (s.cursor.toNat ≠ 2 → (armState data s).totalLen = s.totalLen ∧ (armState data s).payloadLen = s.payloadLen) ∧
      (s.cursor.toNat = 2 → (armState data s).totalLen = BitVec.ofNat 4 (data.toNat + 5) ∧
        (armState data s).payloadLen = data) ∧
      (s.cursor.toNat ≠ 3 → (armState data s).dest = s.dest) ∧
      (s.cursor.toNat = 3 → (armState data s).dest = some data) := by
  unfold armState
  split
  · simp_all
  · split <;> simp_all

@[simp] theorem armState_buf (data : Byte) (s : State) : (armState data s).buf = s.buf := (armState_spec data s).1
@[simp] theorem armState_cursor (data : Byte) (s : State) : (armState data s).cursor = s.cursor :=
  (armState_spec data s).2.1
@[simp] theorem armState_complete (data : Byte) (s : State) : (armState data s).complete = s.complete :=
  (armState_spec data s).2.2.1
@[simp] theorem armState_ts (data : Byte) (s : State) : (armState data s).ts = s.now := (armState_spec data s).2.2.2.1
@[simp] theorem armState_now (data : Byte) (s : State) : (armState data s).now = s.now := (armState_spec data s).2.2.2.2.1
@[simp] theorem armState_pending (data : Byte) (s : State) : (armState data s).pending = s.pending :=
  (armState_spec data s).2.2.2.2.2.1
@[simp] theorem armState_stepCount (data : Byte) (s : State) : (armState data s).stepCount = s.stepCount :=
  (armState_spec data s).2.2.2.2.2.2.1

/-- Everything an `ACCEPT` that goes on can do: drop the byte, discard the frame at a header position, or store the byte and make the
completion check. -/
theorem execAccept_cases {data : Byte} {s t : State} (h : execAccept data s = .next t) :
    (s.complete = true ∧ t = finish .backpressureDrop none s) ∨
      (s.complete = false ∧ s.cursor.toNat < 2 ∧ isSentinel data = false ∧ t = raise .framingError (stampTime s)) ∨
      (s.complete = false ∧ s.cursor.toNat = 2 ∧ exceedsCapacity data = true ∧ t = raise .capacityViolation (stampTime s)) ∨
      (s.complete = false ∧ s.cursor.toNat < 15 ∧ (s.cursor.toNat < 2 → isSentinel data = true) ∧
        (s.cursor.toNat = 2 → exceedsCapacity data = false) ∧
        completionCheck (stored data (armState data s)) = .next t) := by
  unfold execAccept at h
  split at h
  · cases h; simp_all
  · rename_i hc
    have hc : s.complete = false := by simpa using hc
    unfold acceptArm at h
    split at h
    · rename_i h2
      have h2' : s.cursor.toNat < 2 := by simpa using h2
      unfold acceptFraming at h
      split at h
      · obtain ⟨u, hu, ht⟩ := andThen_eq_next.1 h
        obtain ⟨-, rfl⟩ := storeByte_eq_next.1 hu
        refine .inr (.inr (.inr ⟨hc, by omega, fun _ => by assumption, fun h => by omega, ?_⟩))
        rwa [armState, if_neg (by omega), if_neg (by omega)]
      · cases h
        exact .inr (.inl ⟨hc, h2', Bool.eq_false_iff.2 ‹_›, rfl⟩)
    · split at h
      · rename_i h1 h2
        have h2' : s.cursor.toNat = 2 := by simpa using h2
        unfold acceptLength at h
        split at h
        · cases h
          exact .inr (.inr (.inl ⟨hc, h2', by assumption, rfl⟩))
        · obtain ⟨u, hu, ht⟩ := andThen_eq_next.1 h
          obtain ⟨-, rfl⟩ := storeByte_eq_next.1 hu
          refine .inr (.inr (.inr ⟨hc, by omega, fun h => by omega, fun _ => Bool.eq_false_iff.2 ‹_›, ?_⟩))
          rwa [armState, if_pos h2']
      · split at h
        · rename_i h1 h2 h3
          have h3' : s.cursor.toNat = 3 := by simpa using h3
          obtain ⟨u, hu, ht⟩ := andThen_eq_next.1 h
          obtain ⟨-, rfl⟩ := storeByte_eq_next.1 hu
          refine .inr (.inr (.inr ⟨hc, by omega, fun h => by omega, fun h => by omega, ?_⟩))
          rwa [armState, if_neg (by omega), if_pos h3']
        · rename_i h1 h2 h3
          obtain ⟨u, hu, ht⟩ := andThen_eq_next.1 h
          obtain ⟨hlt, rfl⟩ := storeByte_eq_next.1 hu
          simp only [stampTime_cursor] at h1 h2 h3 hlt
          refine .inr (.inr (.inr ⟨hc, hlt, fun h => by omega, fun h => by omega, ?_⟩))
          rwa [armState, if_neg (by omega), if_neg (by omega)]

/-- An `ACCEPT` that stores its byte goes on with the completion check. -/
theorem execAccept_of_stores {data : Byte} {s : State} (hc : s.complete = false) (hlt : s.cursor.toNat < 15)
    (h2 : s.cursor.toNat < 2 → isSentinel data = true) (h3 : s.cursor.toNat = 2 → exceedsCapacity data = false) :
    execAccept data s = completionCheck (stored data (armState data s)) := by
  unfold execAccept
  rw [if_neg (by simp [hc])]
  unfold acceptArm
  by_cases c2 : s.cursor.toNat < 2
  · rw [if_pos (by simpa using c2), acceptFraming, if_pos (h2 c2), storeByte_of_lt (by simpa using hlt), armState,
      if_neg (by omega), if_neg (by omega)]
    rfl
  · rw [if_neg (by simpa using c2)]
    by_cases c3 : s.cursor.toNat = 2
    · rw [if_pos (by simpa using c3), acceptLength, if_neg (by simp [h3 c3]), storeByte_of_lt (by simpa using hlt), armState,
        if_pos c3]
      rfl
    · rw [if_neg (by simpa using c3)]
      by_cases c4 : s.cursor.toNat = 3
      · rw [if_pos (by simpa using c4), acceptDest, storeByte_of_lt (by simpa using hlt), armState, if_neg c3, if_pos c4]
        rfl
      · rw [if_neg (by simpa using c4), acceptBody, storeByte_of_lt (by simpa using hlt), armState, if_neg c3, if_neg c4]
        rfl

/-- A frame is filled when the total length is known and the cursor has reached it. -/
theorem frameFilled_iff (s : State) : frameFilled s = true ↔ s.totalLen ≠ 0#4 ∧ s.cursor = s.totalLen := by
  simp [frameFilled]

/-- Whether the byte just stored filled the frame, on the state before the store. -/
theorem frameFilled_stored {data : Byte} {s : State} (h : s.cursor.toNat < 15) :
    frameFilled (stored data s) = true ↔ s.totalLen.toNat = s.cursor.toNat + 1 := by
  rw [frameFilled_iff, stored_totalLen, BitVec.toNat_eq.trans (Eq.congr_left (stored_cursor_toNat h)), ne_eq,
    BitVec.toNat_eq]
  simp only [BitVec.toNat_ofNat]
  omega

@[simp] theorem isSentinel_iff (data : Byte) : isSentinel data = true ↔ data = 0xAA#8 := by
  simp [isSentinel]

@[simp] theorem isSentinel_false_iff (data : Byte) : isSentinel data = false ↔ data ≠ 0xAA#8 := by
  simp [isSentinel]

theorem exceedsCapacity_iff (data : Byte) : exceedsCapacity data = true ↔ 15 < data.toNat + 5 :=
  decide_eq_true_iff (p := Config.maxFrame < data.toNat + Config.overhead)

theorem exceedsCapacity_false_iff (data : Byte) : exceedsCapacity data = false ↔ data.toNat + 5 ≤ 15 := by
  rw [← Bool.not_eq_true, exceedsCapacity_iff, Nat.not_lt]

/-- The watchdog's condition (R80). -/
theorem watchdogFires_iff (s : State) :
    watchdogFires s = true ↔ s.complete = false ∧ s.ts ≠ 0#32 ∧ 1000 < (s.now - s.ts).toNat := by
  rw [watchdogFires, Bool.and_eq_true, Bool.and_eq_true, decide_eq_true_iff]
  simp [elapsed, and_assoc]

theorem payloadInBuf_iff (s : State) : payloadInBuf s = true ↔ s.payloadLen.toNat ≤ 11 := by
  rw [show payloadInBuf s = decide (4 + s.payloadLen.toNat ≤ 15) from rfl, decide_eq_true_iff]
  omega

/-- The inputs a step with something pending samples. -/
@[simp] theorem nextInput_cons {s : State} {i : StepInput} {rest : List StepInput} (h : s.pending = i :: rest) :
    nextInput s = i := by
  simp [nextInput, h]

/-- The inputs an idle step samples. -/
theorem nextInput_nil {s : State} (h : s.pending = []) : nextInput s = idleInput s := by
  simp [nextInput, h]

end Sys2Proof.Machine
end

