-- ==== Sys2Proof/Laws/Phase.lean ====
section
/-! SUPPORT. Each named state as a condition on the registers (10_state.md R26). -/

namespace Sys2Proof.Machine

/-- A state that is not complete has the name its cursor gives it. -/
theorem phase_of_not_complete {s : State} (h : s.complete = false) :
    phase s = match s.cursor.toNat with
      | 0 => .idle | 1 => .framing1 | 2 => .framing2 | 3 => .lengthKnown | 4 => .destinationKnown
      | _ => .accumulatingPayload :=
  if_neg (by simp [h])

theorem phase_complete_iff (s : State) : phase s = .complete ↔ s.complete = true := by
  cases h : s.complete
  · rw [phase_of_not_complete h]
    split <;> simp
  · simp [phase, h]

theorem phase_idle_iff (s : State) : phase s = .idle ↔ s.complete = false ∧ s.cursor.toNat = 0 := by
  cases h : s.complete
  · rw [phase_of_not_complete h]
    split <;> simp_all
  · simp [phase, h]

theorem phase_framing1_iff (s : State) : phase s = .framing1 ↔ s.complete = false ∧ s.cursor.toNat = 1 := by
  cases h : s.complete
  · rw [phase_of_not_complete h]
    split <;> simp_all
  · simp [phase, h]

theorem phase_framing2_iff (s : State) : phase s = .framing2 ↔ s.complete = false ∧ s.cursor.toNat = 2 := by
  cases h : s.complete
  · rw [phase_of_not_complete h]
    split <;> simp_all
  · simp [phase, h]

theorem phase_lengthKnown_iff (s : State) : phase s = .lengthKnown ↔ s.complete = false ∧ s.cursor.toNat = 3 := by
  cases h : s.complete
  · rw [phase_of_not_complete h]
    split <;> simp_all
  · simp [phase, h]

theorem phase_destinationKnown_iff (s : State) :
    phase s = .destinationKnown ↔ s.complete = false ∧ s.cursor.toNat = 4 := by
  cases h : s.complete
  · rw [phase_of_not_complete h]
    split <;> simp_all
  · simp [phase, h]

theorem phase_accumulatingPayload_iff (s : State) :
    phase s = .accumulatingPayload ↔ s.complete = false ∧ 5 ≤ s.cursor.toNat := by
  cases h : s.complete
  · rw [phase_of_not_complete h]
    split <;> simp_all
    omega
  · simp [phase, h]

end Sys2Proof.Machine
end

