-- ==== Sys2Proof/Laws/Step.lean ====
section
/-! SUPPORT. Runs of the machine, one step at either end; what a step does to the inputs to come and to `ts`. -/

namespace Sys2Proof.Safety

open Sys2Proof.Machine

/-- A run of no steps. -/
@[simp] theorem run_zero (s : State) : run 0 s = .next s := rfl

/-- A run of `k + 1` steps is a step and then a run of `k`. -/
theorem run_succ (k : Nat) (s : State) : run (k + 1) s = andThen (step s) (run k) := rfl

/-- A run of `k` steps followed by one more. -/
theorem run_snoc {k : Nat} {s u t : State} (h : run k s = .next u) (hs : step u = .next t) :
    run (k + 1) s = .next t := by
  induction k generalizing s with
  | zero => cases h; rw [run_succ, hs]; rfl
  | succ k ih =>
    rw [run_succ, andThen_eq_next] at h
    obtain ⟨v, hv, hk⟩ := h
    rw [run_succ, hv]
    exact ih hk

/-- What Host/Core.lean's run does at each outcome of the first step. -/
theorem core_run_succ (M : Host.Core) (k : Nat) (s : M.State) :
    (∀ t, M.step s = .next t → M.run (k + 1) s = M.run k t) ∧
    (∀ r, M.step s = .fault r → M.run (k + 1) s = .fault r) ∧
    (∀ r, M.step s = .refused r → M.run (k + 1) s = .refused r) :=
  ⟨fun t h => by simp [Host.Core.run, h], fun r h => by simp [Host.Core.run, h],
    fun r h => by simp [Host.Core.run, h]⟩

/-- It is the run of Host/Core.lean. -/
theorem run_eq_core_run (k : Nat) (s : State) : run k s = Host.Core.run core k s := by
  induction k generalizing s with
  | zero => rfl
  | succ k ih =>
    rw [run_succ]
    cases h : step s with
    | next t => exact (ih t).trans ((core_run_succ core k s).1 t h).symm
    | fault r => exact ((core_run_succ core k s).2.1 r h).symm
    | refused r => exact ((core_run_succ core k s).2.2 r h).symm

/-- The times of the inputs to come, one input at a time. -/
theorem times_cons (i : StepInput) (l : List StepInput) :
    times (i :: l) = if !i.rst && readsNow (decodeWord i.cmd) then i.now :: times l else times l := by
  simp only [times, List.filter_cons]
  split <;> simp

/-- An `ACCEPT` keeps the inputs to come, and leaves `ts` as it was, at 0, or at the time sampled. -/
theorem execAccept_pending_ts {data : Byte} {s t : State} (h : execAccept data s = .next t) :
    t.pending = s.pending ∧ (t.ts = s.ts ∨ t.ts = 0#32 ∨ t.ts = s.now) := by
  rcases execAccept_cases h with ⟨-, rfl⟩ | ⟨-, -, -, rfl⟩ | ⟨-, -, -, rfl⟩ | ⟨-, -, -, -, hk⟩
  · simp
  · simp
  · simp
  · rcases completionCheck_cases hk with ⟨-, rfl⟩ | ⟨-, -, -, rfl⟩ | ⟨-, -, -, rfl⟩ <;> simp

/-- A step takes one input off, and leaves `ts` as it was, at 0, or, if its command reads the time, at the time sampled. -/
theorem step_pending_ts {s t : State} (h : step s = .next t) :
    t.pending = s.pending.tail ∧ (t.ts = s.ts ∨ t.ts = 0#32 ∨
      ((nextInput s).rst = false ∧ readsNow (decodeWord (nextInput s).cmd) = true ∧ t.ts = (nextInput s).now)) := by
  rw [step] at h
  cases hr : (nextInput s).rst
  · rw [if_neg (by simp [hr])] at h
    generalize decodeWord (nextInput s).cmd = i at h ⊢
    cases i with
    | accept data =>
      obtain ⟨hp, hts⟩ := execAccept_pending_ts h
      exact ⟨hp, hts.imp_right (Or.imp_right fun e => ⟨rfl, rfl, e⟩)⟩
    | poll => rcases execPoll_cases h with ⟨-, rfl⟩ | ⟨-, rfl⟩ <;> simp
    | drain => rcases execDrain_cases h with ⟨-, -, rfl⟩ | ⟨-, rfl⟩ <;> simp
    | reset => cases h; simp
    | _ => cases h; simp
  · rw [if_pos hr] at h
    cases h
    simp

end Sys2Proof.Safety
end

