-- ==== Sys2Proof/Tests/Slice0.lean ====
section
/-! SUPPORT. Tests and witnesses. Expected results are those of spec/95_test_vectors.md (derived there by hand from the rules), or come
from the rule the docstring names. The witnesses show, for each statement with hypotheses, a concrete state and operands that meet
all of them together. -/

namespace Sys2Proof.Tests

open Sys2Proof.Machine Sys2Proof.Safety

/-! ## States of the traces of 95_test_vectors.md -/

/-- The cells `AA AA 02 01 10 20` of trace S1. -/
def cells : Memory := [(0, 0xAA#8), (1, 0xAA#8), (2, 0x02#8), (3, 0x01#8), (4, 0x10#8), (5, 0x20#8)]

/-- S1 after row 1 (A1.4's start state). -/
def framing1 : State := { State.reset with cursor := 1#4, ts := 100#32, buf := cells.take 1 }

/-- S1 after row 2 (A1.6's start state). -/
def framing2 : State := { State.reset with cursor := 2#4, ts := 101#32, buf := cells.take 2 }

/-- S1 after row 3 (A1.12's and T0.2's start state). -/
def lengthKnown : State :=
  { State.reset with cursor := 3#4, totalLen := 7#4, payloadLen := 2#8, ts := 102#32, buf := cells.take 3 }

/-- S1 after row 4 (A1.14's start state). -/
def destKnown : State :=
  { State.reset with
    cursor := 4#4, totalLen := 7#4, payloadLen := 2#8, dest := some 0x01#8, ts := 103#32, buf := cells.take 4 }

/-- S3 after row 4 (A1.17's start state): the trailer of an empty payload is next. -/
def emptyFrame : State :=
  { State.reset with
    cursor := 4#4, totalLen := 5#4, dest := some 0x07#8, ts := 8#32,
    buf := [(0, 0xAA#8), (1, 0xAA#8), (2, 0x00#8), (3, 0x07#8)] }

/-- S1 after row 6 (A1.15's start state): the trailer is next. -/
def trailerNext : State :=
  { State.reset with
    cursor := 6#4, totalLen := 7#4, payloadLen := 2#8, dest := some 0x01#8, ts := 105#32, buf := cells }

/-- A9 after row 14 (A1.19's start state): the trailer of the longest frame is next. -/
def longestFrame : State :=
  { State.reset with
    cursor := 14#4, totalLen := 15#4, payloadLen := 10#8, dest := some 0xFF#8, ts := 23#32,
    buf := [(0, 0xAA#8), (1, 0xAA#8), (2, 0x0A#8), (3, 0xFF#8), (4, 0xF6#8), (5, 0xF7#8), (6, 0xF8#8), (7, 0xF9#8)] ++
      [(8, 0xFA#8), (9, 0xFB#8), (10, 0xFC#8), (11, 0xFD#8), (12, 0xFE#8), (13, 0xFF#8)] }

/-- S1 after row 7 (A1.20's start state). -/
def complete : State :=
  { State.reset with
    cursor := 7#4, totalLen := 7#4, payloadLen := 2#8, dest := some 0x01#8, complete := true,
    buf := cells ++ [(6, 0xCF#8)] }

/-- S3 after row 5: a complete frame with no payload. -/
def completeEmpty : State :=
  { emptyFrame with cursor := 5#4, complete := true, ts := 0#32, buf := emptyFrame.buf ++ [(4, 0xFF#8)] }

/-- A9 after row 15: the complete frame that fills the buffer. -/
def completeLongest : State :=
  { longestFrame with cursor := 15#4, complete := true, ts := 0#32, buf := longestFrame.buf ++ [(14, 0x36#8)] }

/-- T0.9's start state: the counter is about to wrap. -/
def beforeWrap : State := { framing1 with ts := 0xFFFFFF00#32 }

/-- A state outside the invariant: a frame "in progress" whose cursor is at 15. -/
def beyond : State := { State.reset with cursor := 15#4 }

/-- The state with another time sampled. -/
def sampledAt (t : Time) (s : State) : State := { s with now := t }

/-- The state with these inputs to come. -/
def with_ (l : List StepInput) (s : State) : State := { s with pending := l }

/-- The next state, where there is one. -/
def after (o : Result) : Option State :=
  match o with
  | .next t => some t
  | .fault _ => none
  | .refused _ => none

/-- The label and the registers of a trace row. -/
structure Row where
  event : Event
  cursor : Cur
  totalLen : Cur
  payloadLen : Byte
  dest : Option Byte
  complete : Bool
  ts : Time
  deriving DecidableEq, Repr

/-- The trace row of a command. -/
def row (o : Result) : Option Row :=
  (after o).map (fun t => ⟨t.event, t.cursor, t.totalLen, t.payloadLen, t.dest, t.complete, t.ts⟩)

/-- A cell after the command. -/
def cellAfter (i : Nat) (o : Result) : Option Byte := (after o).bind (fun t => t.buf.read i)

/-- An input. -/
def input (i : Instr) (t : Time) : StepInput := { rst := false, cmd := encode i, now := t }

/-! ## The states meet the invariant -/

theorem invariant_reset : Invariant State.reset :=
  ⟨by decide, by decide, by decide, by decide, by decide, by decide, by decide, by decide, by decide⟩
theorem invariant_framing1 : Invariant framing1 :=
  ⟨by decide, by decide, by decide, by decide, by decide, by decide, by decide, by decide, by decide⟩
theorem invariant_framing2 : Invariant framing2 :=
  ⟨by decide, by decide, by decide, by decide, by decide, by decide, by decide, by decide, by decide⟩
theorem invariant_lengthKnown : Invariant lengthKnown :=
  ⟨by decide, by decide, by decide, by decide, by decide, by decide, by decide, by decide, by decide⟩
theorem invariant_destKnown : Invariant destKnown :=
  ⟨by decide, by decide, by decide, by decide, by decide, by decide, by decide, by decide, by decide⟩
theorem invariant_emptyFrame : Invariant emptyFrame :=
  ⟨by decide, by decide, by decide, by decide, by decide, by decide, by decide, by decide, by decide⟩
theorem invariant_trailerNext : Invariant trailerNext :=
  ⟨by decide, by decide, by decide, by decide, by decide, by decide, by decide, by decide, by decide⟩
theorem invariant_longestFrame : Invariant longestFrame :=
  ⟨by decide, by decide, by decide, by decide, by decide, by decide, by decide, by decide, by decide⟩
theorem invariant_complete : Invariant complete :=
  ⟨by decide, by decide, by decide, by decide, by decide, by decide, by decide, by decide, by decide⟩
theorem invariant_completeEmpty : Invariant completeEmpty :=
  ⟨by decide, by decide, by decide, by decide, by decide, by decide, by decide, by decide, by decide⟩
theorem invariant_completeLongest : Invariant completeLongest :=
  ⟨by decide, by decide, by decide, by decide, by decide, by decide, by decide, by decide, by decide⟩

/-! ## Smoke tests of the checks: an ill-formed term for each -/

/-- `OVERHEAD = HDR + 1` (R6). -/
theorem test_overhead_refused :
    Params.overheadOk { Config.params with hdr := 5 } = false ∧ Params.legal { Config.params with hdr := 5 } = false := by
  decide

/-- `OVERHEAD <= MAX_FRAME <= 260` (R7), at both ends. -/
theorem test_maxFrame_refused :
    Params.maxFrameOk { Config.params with maxFrame := 4 } = false ∧
    Params.maxFrameOk { Config.params with maxFrame := 5 } = true ∧
    Params.maxFrameOk { Config.params with maxFrame := 260 } = true ∧
    Params.maxFrameOk { Config.params with maxFrame := 261 } = false ∧
    Params.legal { Config.params with maxFrame := 4 } = false := by decide

/-- `TIMEOUT_MS < 2^TIME_W` (R22). -/
theorem test_timeout_refused :
    Params.timeoutOk { Config.params with timeoutMs := 4294967295 } = true ∧
    Params.timeoutOk { Config.params with timeoutMs := 4294967296 } = false ∧
    Params.legal { Config.params with timeoutMs := 4294967296 } = false := by decide

/-- `CUR_W` is the least `n` with `2^n > MAX_FRAME` (R8). -/
theorem test_curW_refused :
    Params.curWOk { Config.params with curW := 3 } = false ∧ Params.curWOk { Config.params with curW := 5 } = false ∧
    Params.curWOk { Config.params with maxFrame := 16, curW := 5 } = true ∧
    Params.legal { Config.params with curW := 5 } = false := by decide

/-- The widths this model's types hold (R8). -/
theorem test_widths_refused :
    Params.widthsOk { Config.params with cmdW := 12 } = false ∧
    Params.widthsOk { Config.params with timeW := 64 } = false ∧
    Params.legal { Config.params with timeW := 64 } = false := by decide

/-- This hardware's own constants pass, and `MAX_PAYLOAD` is 10 (R7). -/
theorem test_params_legal : Params.legal Config.params = true ∧ Config.maxPayload = 10 := by decide

/-- A number that does not fit 11 bits is no command word, is refused by name, and is not presented (R54). -/
theorem test_wide_word_refused :
    cmdWordFits 2047 = true ∧ cmdWordFits 2048 = false ∧
    (match decode 2048 with | .error .tooWide => true | .ok _ => false) = true ∧
    decodeTableWord 16 2048 = none ∧ presentWord 2048 State.reset = State.reset := by decide

/-- A frame with a bad sentinel, a length above 10, a length that does not fit its bytes, or a bad trailer is not well formed; the
frame of S1 is (R49 to R53). -/
theorem test_frames :
    wellFormedFrame [0xAA#8, 0xAA#8, 0x02#8, 0x01#8, 0x10#8, 0x20#8, 0xCF#8] = true ∧
    wellFormedFrame [0xAA#8, 0xAB#8, 0x02#8, 0x01#8, 0x10#8, 0x20#8, 0xCF#8] = false ∧
    wellFormedFrame [0xAA#8, 0xAA#8, 0x03#8, 0x01#8, 0x10#8, 0x20#8, 0xCF#8] = false ∧
    wellFormedFrame [0xAA#8, 0xAA#8, 0x02#8, 0x01#8, 0x10#8, 0x20#8, 0xCE#8] = false ∧
    wellFormedFrame [0xAA#8, 0xAA#8, 0x02#8] = false ∧
    wellFormedFrame (frameBytes 0x01#8 (List.replicate 11 0x00#8)) = false ∧
    frameBytes 0x01#8 [0x10#8, 0x20#8] = [0xAA#8, 0xAA#8, 0x02#8, 0x01#8, 0x10#8, 0x20#8, 0xCF#8] ∧
    frameLength 2 = 7 := by decide

/-- `FEED` (R61): one millisecond apart, wrapping; with `+0` at one time. -/
theorem test_feed :
    feed [0xAA#8, 0x02#8] 0xFFFFFFFF#32 = [input (.accept 0xAA#8) 0xFFFFFFFF#32, input (.accept 0x02#8) 0#32] ∧
    feedSame [0xAA#8, 0x02#8] 42#32 = [input (.accept 0xAA#8) 42#32, input (.accept 0x02#8) 42#32] := by decide

/-! ## Decoding: each row's word, written out from R54 and R55 -/

theorem test_decode_nop : decode 0b00000000000 = .ok .nop ∧ decode 0b00011111111 = .ok .nop := ⟨rfl, rfl⟩
theorem test_decode_accept :
    decode 0b00110101010 = .ok (.accept 0xAA#8) ∧ decode 0b00101010101 = .ok (.accept 0x55#8) := ⟨rfl, rfl⟩
theorem test_decode_poll : decode 0b01000000000 = .ok .poll ∧ decode 0b01010101010 = .ok .poll := ⟨rfl, rfl⟩
theorem test_decode_reset : decode 0b01100000000 = .ok .reset ∧ decode 0b01111111111 = .ok .reset := ⟨rfl, rfl⟩
theorem test_decode_drain : decode 0b10000000000 = .ok .drain ∧ decode 0b10001010101 = .ok .drain := ⟨rfl, rfl⟩
theorem test_decode_reserved101 : decode 0b10100000000 = .ok .reserved101 := rfl
theorem test_decode_reserved110 : decode 0b11010101010 = .ok .reserved110 := rfl
theorem test_decode_reserved111 : decode 0b11111111111 = .ok .reserved111 := rfl

/-- The encoder's words (R55, R58, R60). -/
theorem test_encode :
    encode .nop = 0x000#11 ∧ encode (.accept 0xAA#8) = 0x1AA#11 ∧ encode .poll = 0x200#11 ∧ encode .reset = 0x300#11 ∧
    encode .drain = 0x400#11 ∧ encode .reserved101 = 0x500#11 ∧ encode .reserved110 = 0x600#11 ∧
    encode .reserved111 = 0x700#11 := by decide

/-- A word presented from reset is what the next step runs (R55, R70): `ACCEPT 0x00` in Idle is `FramingError`, `ACCEPT 0xAA` is
stored. -/
theorem test_presented_word_runs :
    (row (step (State.reset.withFetchWord 16 0x100))).map Row.event = some .framingError ∧
    cellAfter 0 (step (State.reset.withFetchWord 11 0x1AA)) = some 0xAA#8 := by decide

/-! ## One step of each command -/

/-- The bytes that are kept: A1.1, A1.4, A1.7, A1.13, A1.14, A1.15, A1.19, A1.22. -/
theorem test_accept_kept :
    row (exec (.accept 0xAA#8) (sampledAt 100#32 State.reset)) = some ⟨.noEvent, 1#4, 0#4, 0#8, none, false, 100#32⟩ ∧
    row (exec (.accept 0xAA#8) (sampledAt 101#32 framing1)) = some ⟨.noEvent, 2#4, 0#4, 0#8, none, false, 101#32⟩ ∧
    row (exec (.accept 0x0A#8) (sampledAt 102#32 framing2)) = some ⟨.noEvent, 3#4, 15#4, 10#8, none, false, 102#32⟩ ∧
    row (exec (.accept 0xAA#8) (sampledAt 103#32 lengthKnown)) =
      some ⟨.noEvent, 4#4, 7#4, 2#8, some 0xAA#8, false, 103#32⟩ ∧
    row (exec (.accept 0x10#8) (sampledAt 104#32 destKnown)) =
      some ⟨.noEvent, 5#4, 7#4, 2#8, some 0x01#8, false, 104#32⟩ ∧
    row (exec (.accept 0xCF#8) (sampledAt 106#32 trailerNext)) =
      some ⟨.frameComplete, 7#4, 7#4, 2#8, some 0x01#8, true, 0#32⟩ ∧
    row (exec (.accept 0x36#8) (sampledAt 24#32 longestFrame)) =
      some ⟨.frameComplete, 15#4, 15#4, 10#8, some 0xFF#8, true, 0#32⟩ ∧
    cellAfter 14 (exec (.accept 0x36#8) (sampledAt 24#32 longestFrame)) = some 0x36#8 ∧
    row (exec (.accept 0xAA#8) (sampledAt 0#32 State.reset)) = some ⟨.noEvent, 1#4, 0#4, 0#8, none, false, 0#32⟩ := by
  decide

/-- The bytes that are not: A1.3, A1.5, A1.8, A1.9, A1.16 (whose byte stays in its cell), A1.18, A1.21. -/
theorem test_accept_discarded :
    row (exec (.accept 0xAB#8) (sampledAt 100#32 State.reset)) = some ⟨.framingError, 0#4, 0#4, 0#8, none, false, 0#32⟩ ∧
    row (exec (.accept 0x2A#8) (sampledAt 101#32 framing1)) = some ⟨.framingError, 0#4, 0#4, 0#8, none, false, 0#32⟩ ∧
    row (exec (.accept 0x0B#8) (sampledAt 102#32 framing2)) =
      some ⟨.capacityViolation, 0#4, 0#4, 0#8, none, false, 0#32⟩ ∧
    row (exec (.accept 0xFB#8) (sampledAt 102#32 framing2)) =
      some ⟨.capacityViolation, 0#4, 0#4, 0#8, none, false, 0#32⟩ ∧
    row (exec (.accept 0xCE#8) (sampledAt 106#32 trailerNext)) =
      some ⟨.checksumFailure, 0#4, 0#4, 0#8, some 0x01#8, false, 0#32⟩ ∧
    cellAfter 6 (exec (.accept 0xCE#8) (sampledAt 106#32 trailerNext)) = some 0xCE#8 ∧
    row (exec (.accept 0xFE#8) (sampledAt 9#32 emptyFrame)) =
      some ⟨.checksumFailure, 0#4, 0#4, 0#8, some 0x07#8, false, 0#32⟩ ∧
    row (exec (.accept 0x00#8) (sampledAt 0#32 complete)) =
      some ⟨.backpressureDrop, 7#4, 7#4, 2#8, some 0x01#8, true, 0#32⟩ := by decide

/-- The threshold is strict: T0.4, T0.5. -/
theorem test_poll_threshold :
    row (exec .poll (sampledAt 1102#32 lengthKnown)) = some ⟨.noEvent, 3#4, 7#4, 2#8, none, false, 102#32⟩ ∧
    row (exec .poll (sampledAt 1103#32 lengthKnown)) = some ⟨.timeout, 0#4, 0#4, 0#8, none, false, 0#32⟩ := by decide

/-- Time 0, a complete frame, and the wrap: T0.7, T0.8, T0.9, T0.10. -/
theorem test_poll_corners :
    row (exec .poll (sampledAt 5000#32 { framing1 with ts := 0#32 })) =
      some ⟨.noEvent, 1#4, 0#4, 0#8, none, false, 0#32⟩ ∧
    row (exec .poll (sampledAt 99999#32 complete)) = some ⟨.noEvent, 7#4, 7#4, 2#8, some 0x01#8, true, 0#32⟩ ∧
    row (exec .poll (sampledAt 744#32 beforeWrap)) =
      some ⟨.noEvent, 1#4, 0#4, 0#8, none, false, 0xFFFFFF00#32⟩ ∧
    row (exec .poll (sampledAt 745#32 beforeWrap)) = some ⟨.timeout, 0#4, 0#4, 0#8, none, false, 0#32⟩ := by decide

/-- `RESET` discards an unread frame; `dest` and the cells stay (trace R2, row 9; R86). -/
theorem test_reset :
    row (exec .reset complete) = some ⟨.noEvent, 0#4, 0#4, 0#8, some 0x01#8, false, 0#32⟩ ∧
    cellAfter 6 (exec .reset complete) = some 0xCF#8 := by decide

/-- S1, row 8: the frame delivered, and the block idle. -/
theorem test_drain :
    (after (exec .drain complete)).map (fun t => t.result) =
      some (some { dest := 0x01#8, len := 2#8, payload := [0x10#8, 0x20#8] }) ∧
    row (exec .drain complete) = some ⟨.noEvent, 0#4, 0#4, 0#8, some 0x01#8, false, 0#32⟩ := by decide

/-- Trace R1, row 9: `DRAIN` with a frame in progress returns none and does not abandon it. -/
theorem test_drain_of_nothing :
    (after (exec .drain lengthKnown)).map (fun t => t.result) = some none ∧
    row (exec .drain lengthKnown) = some ⟨.noEvent, 3#4, 7#4, 2#8, none, false, 102#32⟩ := by decide

/-- Trace R2, row 7. -/
theorem test_nop : row (exec .nop complete) = some ⟨.noEvent, 7#4, 7#4, 2#8, some 0x01#8, true, 0#32⟩ := by decide

/-- Vectors R3. -/
theorem test_reserved :
    row (exec .reserved101 lengthKnown) = some ⟨.noEvent, 3#4, 7#4, 2#8, none, false, 102#32⟩ ∧
    row (exec .reserved110 lengthKnown) = some ⟨.noEvent, 3#4, 7#4, 2#8, none, false, 102#32⟩ ∧
    row (exec .reserved111 complete) = some ⟨.noEvent, 7#4, 7#4, 2#8, some 0x01#8, true, 0#32⟩ := by decide

/-- While `rst` is asserted no command is taken and the power-on state results (R92). -/
theorem test_rst :
    row (step (with_ [{ rst := true, cmd := 0x110#11, now := 7#32 }] complete)) =
      some ⟨.noEvent, 0#4, 0#4, 0#8, none, false, 0#32⟩ ∧
    cellAfter 0 (step (with_ [{ rst := true, cmd := 0x110#11, now := 7#32 }] complete)) = none := by decide

/-- Table K, rows K1, K3, K6, K8, K9, K14, K16. -/
theorem test_checksum :
    checksumOf [] = 0xFF#8 ∧ checksumOf [0xFF#8] = 0x00#8 ∧ checksumOf [0x10#8, 0x20#8] = 0xCF#8 ∧
    checksumOf [0xFF#8, 0x01#8] = 0xFF#8 ∧ checksumOf [0xFF#8, 0xFF#8] = 0x01#8 ∧
    checksumOf (List.replicate 10 0xFF#8) = 0x09#8 ∧ checksumOf (List.replicate 10 0x19#8) = 0x05#8 := by decide

/-- Table O: after step 6 and step 7 of S1, and at power-on. -/
theorem test_outputs :
    ready trailerNext = false ∧ outLen trailerNext = 2#8 ∧ outDest 0 trailerNext = 0x01#8 ∧
    outCsum 0 trailerNext = 0xCF#8 ∧ bufData 0 5#4 trailerNext = 0x20#8 ∧
    ready complete = true ∧ outCsum 0 complete = 0xCF#8 ∧ bufData 0 6#4 complete = 0xCF#8 ∧
    ready State.reset = false ∧ outLen State.reset = 0#8 ∧ outCsum 0 State.reset = 0xFF#8 := by decide

/-- A write keeps the addresses rising, wherever it falls, and replaces what the cell held (R38). -/
theorem test_memory :
    Memory.write [(1, 0x11#8), (3, 0x33#8)] 2 0x22#8 = [(1, 0x11#8), (2, 0x22#8), (3, 0x33#8)] ∧
    Memory.write [(1, 0x11#8), (3, 0x33#8)] 3 0x44#8 = [(1, 0x11#8), (3, 0x44#8)] ∧
    Memory.read [(1, 0x11#8)] 2 = none := by decide

/-- A trace with a reserved opcode is seen (R57, U5). -/
theorem test_noReserved :
    noReserved [input .nop 0#32, input (.accept 0xFF#8) 1#32] = true ∧
    noReserved [input .nop 0#32, input .reserved110 1#32] = false := by decide

/-! ## Witnesses -/

theorem witness_DecodeEncodeAgree : 2 ^ 11 ≤ 2048 := by decide

theorem witness_StepRunsDecodedCommand :
    (with_ [input .poll 5#32, input .nop 6#32] lengthKnown).pending = input .poll 5#32 :: [input .nop 6#32] ∧
    (input .poll 5#32).rst = false ∧ decode (input .poll 5#32).cmd.toNat = .ok .poll := ⟨rfl, rfl, rfl⟩

theorem witness_StepWithoutInputIdles : lengthKnown.pending = [] := rfl

theorem witness_ResetInputGivesPowerOn :
    (with_ [{ rst := true, cmd := 0x1AA#11, now := 9#32 }] complete).pending =
      { rst := true, cmd := 0x1AA#11, now := 9#32 } :: [] := rfl

theorem witness_AcceptDropsWhileComplete : complete.complete = true := rfl

theorem witness_AcceptFramingByte :
    (State.reset.complete = false ∧ State.reset.cursor.toNat < 2 ∧ State.reset.totalLen = 0#4) ∧
    (framing1.complete = false ∧ framing1.cursor.toNat < 2 ∧ framing1.totalLen = 0#4) ∧
    (0xAA#8 : Byte) = 0xAA#8 ∧ (0xAB#8 : Byte) ≠ 0xAA#8 := by decide

theorem witness_AcceptLengthByte :
    framing2.complete = false ∧ framing2.cursor = 2#4 ∧ (0x0A#8 : Byte).toNat + 5 ≤ 15 ∧ 15 < (0x0B#8 : Byte).toNat + 5 := by
  decide

theorem witness_AcceptDestinationByte : lengthKnown.complete = false ∧ lengthKnown.cursor = 3#4 ∧ I1 lengthKnown := by
  decide

theorem witness_AcceptPayloadByte :
    (destKnown.complete = false ∧ 4 ≤ destKnown.cursor.toNat ∧ destKnown.cursor.toNat < 15 ∧
      destKnown.cursor.toNat + 1 ≠ destKnown.totalLen.toNat) ∧
    (longestFrame.complete = false ∧ 4 ≤ longestFrame.cursor.toNat ∧ longestFrame.cursor.toNat < 15) := by decide

theorem witness_AcceptTrailerByte :
    Invariant trailerNext ∧ trailerNext.complete = false ∧ 4 ≤ trailerNext.cursor.toNat ∧
    trailerNext.cursor.toNat + 1 = trailerNext.totalLen.toNat ∧
    csum (writeBuf 6 0xCF#8 trailerNext) trailerNext.payloadLen.toNat = 0xCF#8 ∧
    csum (writeBuf 6 0xCE#8 trailerNext) trailerNext.payloadLen.toNat ≠ 0xCE#8 :=
  ⟨invariant_trailerNext, by decide⟩

theorem witness_AcceptTrailerByte_bounds :
    (Invariant emptyFrame ∧ emptyFrame.complete = false ∧ 4 ≤ emptyFrame.cursor.toNat ∧
      emptyFrame.cursor.toNat + 1 = emptyFrame.totalLen.toNat) ∧
    (Invariant longestFrame ∧ longestFrame.complete = false ∧ 4 ≤ longestFrame.cursor.toNat ∧
      longestFrame.cursor.toNat + 1 = longestFrame.totalLen.toNat) :=
  ⟨⟨invariant_emptyFrame, by decide⟩, invariant_longestFrame, by decide⟩

theorem witness_AcceptRecordsTime :
    (destKnown.complete = false ∧ ∃ t, exec (.accept 0x10#8) destKnown = .next t ∧ inProgress t) ∧
    (trailerNext.complete = false ∧ ∃ t, exec (.accept 0xCF#8) trailerNext = .next t ∧ ¬ inProgress t) :=
  ⟨⟨rfl, _, rfl, by decide⟩, rfl, _, rfl, by decide⟩

theorem witness_AcceptIgnoresElapsedTime : destKnown.complete = false := rfl

theorem witness_AcceptFrame :
    (∃ t, exec (.accept 0x10#8) destKnown = .next t) ∧
    (complete.complete = true ∧ ∃ t, exec (.accept 0x10#8) complete = .next t) ∧
    (framing1.cursor.toNat < 2 ∧ (0x2A#8 : Byte) ≠ 0xAA#8 ∧ ∃ t, exec (.accept 0x2A#8) framing1 = .next t) ∧
    (framing2.cursor.toNat = 2 ∧ 15 < (0x0B#8 : Byte).toNat + 5 ∧ ∃ t, exec (.accept 0x0B#8) framing2 = .next t) ∧
    framing1.cursor ≠ 2#4 ∧ destKnown.cursor ≠ 3#4 :=
  ⟨⟨_, rfl⟩, ⟨rfl, _, rfl⟩, ⟨by decide, by decide, _, rfl⟩, ⟨by decide, by decide, _, rfl⟩, by decide, by decide⟩

/-- The conditions of `Obligations.PollTimesOut`. -/
abbrev fires (s : State) : Prop := s.complete = false ∧ s.ts ≠ 0#32 ∧ 1000 < (s.now - s.ts).toNat

/-- At 1001 ms it fires; at 1000 ms, with `ts = 0`, and while complete it does not. -/
theorem witness_PollTimesOut :
    fires (sampledAt 1103#32 lengthKnown) ∧ ¬ fires (sampledAt 1102#32 lengthKnown) ∧
    ¬ fires (sampledAt 5000#32 { framing1 with ts := 0#32 }) ∧ ¬ fires (sampledAt 99999#32 complete) := by decide

theorem witness_ElapsedIsModular :
    (sampledAt 102#32 lengthKnown).ts.toNat ≤ (sampledAt 102#32 lengthKnown).now.toNat ∧
    (sampledAt 744#32 beforeWrap).now.toNat < (sampledAt 744#32 beforeWrap).ts.toNat := by decide

theorem witness_PollLeavesIdleAndComplete :
    (Invariant State.reset ∧ phase State.reset = .idle) ∧ (Invariant complete ∧ phase complete = .complete) ∧
    (Invariant lengthKnown ∧ inProgress lengthKnown ∧ lengthKnown.ts ≠ 0#32) :=
  ⟨⟨invariant_reset, rfl⟩, ⟨invariant_complete, rfl⟩, invariant_lengthKnown, by decide⟩

theorem witness_ResetReturnsToIdle : Invariant State.reset ∧ phase State.reset = .idle := ⟨invariant_reset, rfl⟩

theorem witness_DrainDeliversFrame :
    (Invariant complete ∧ complete.complete = true) ∧ (Invariant completeEmpty ∧ completeEmpty.complete = true) ∧
    (Invariant completeLongest ∧ completeLongest.complete = true) :=
  ⟨⟨invariant_complete, rfl⟩, ⟨invariant_completeEmpty, rfl⟩, invariant_completeLongest, rfl⟩

theorem witness_DrainOfNothing : lengthKnown.complete = false := rfl

theorem witness_OtherCommandsFrame :
    (∀ data, Instr.drain ≠ .accept data) ∧ ∃ t, exec .drain complete = .next t := ⟨by simp, _, rfl⟩

theorem witness_OnlyAcceptAndPollReadTime :
    readsNow .nop = false ∧ readsNow .reset = false ∧ readsNow .drain = false ∧ readsNow .reserved101 = false := by decide

theorem witness_ErrorEvents :
    (Invariant framing1 ∧ ∃ t, exec (.accept 0x2A#8) framing1 = .next t ∧ t.event = .framingError) ∧
    (Invariant framing2 ∧ ∃ t, exec (.accept 0x0B#8) framing2 = .next t ∧ t.event = .capacityViolation) ∧
    (Invariant trailerNext ∧ ∃ t, exec (.accept 0xCE#8) trailerNext = .next t ∧ t.event = .checksumFailure) ∧
    (Invariant complete ∧ ∃ t, exec (.accept 0xAA#8) complete = .next t ∧ t.event = .backpressureDrop) :=
  ⟨⟨invariant_framing1, _, rfl, rfl⟩, ⟨invariant_framing2, _, rfl, rfl⟩, ⟨invariant_trailerNext, _, rfl, rfl⟩,
    invariant_complete, _, rfl, rfl⟩

theorem witness_ErrorEvents_timeout :
    Invariant (sampledAt 1103#32 lengthKnown) ∧
    ∃ t, exec .poll (sampledAt 1103#32 lengthKnown) = .next t ∧ t.event = .timeout :=
  ⟨⟨by decide, by decide, by decide, by decide, by decide, by decide, by decide, by decide, by decide⟩, _, rfl, rfl⟩

theorem witness_SingleBitFlipDiscards :
    Invariant trailerNext ∧ trailerNext.complete = false ∧ trailerNext.cursor.toNat + 1 = trailerNext.totalLen.toNat ∧
    (∃ t, exec (.accept 0xCF#8) trailerNext = .next t ∧ t.event = .frameComplete) ∧
    1 < trailerNext.payloadLen.toNat ∧ trailerNext.buf.read (4 + 0) = some 0x10#8 ∧
    trailerNext.buf.read (4 + 1) = some 0x20#8 ∧ 0 < 8 ∧ 7 < 8 :=
  ⟨invariant_trailerNext, rfl, by decide, ⟨_, rfl, rfl⟩, by decide⟩

theorem witness_ReadAfterWrite : (6 : Nat) ≠ 5 := by decide

/-- The payload cells are held at the trailer of the longest frame, and in table O's row 6; there is no payload at power-on. -/
theorem witness_OutputsShowRegisters :
    complete.dest = some 0x01#8 ∧ (14#4 : Cur).toNat < 15 ∧ completeLongest.buf.read (14#4 : Cur).toNat = some 0x36#8 ∧
    (∀ i, i < trailerNext.payloadLen.toNat → 4 + i < 15 ∧ (trailerNext.buf.read (4 + i)).isSome = true) ∧
    (∀ i, i < longestFrame.payloadLen.toNat → 4 + i < 15 ∧ (longestFrame.buf.read (4 + i)).isSome = true) ∧
    State.reset.payloadLen = 0#8 := by decide

theorem witness_ReadyWindowIsStable :
    Invariant (with_ [input .poll 9#32] complete) ∧ (with_ [input .poll 9#32] complete).complete = true ∧
    (nextInput (with_ [input .poll 9#32] complete)).rst = false ∧
    decodeWord (nextInput (with_ [input .poll 9#32] complete)).cmd ≠ .reset ∧
    decodeWord (nextInput (with_ [input .poll 9#32] complete)).cmd ≠ .drain ∧
    (∃ t, step (with_ [input .poll 9#32] complete) = .next t) ∧ (6#4 : Cur).toNat ≤ 4 + (outLen complete).toNat :=
  ⟨⟨by decide, by decide, by decide, by decide, by decide, by decide, by decide, by decide, by decide⟩,
    rfl, rfl, by decide, by decide, ⟨_, rfl⟩, by decide⟩

theorem witness_CompleteFrameIsWellFormed :
    (Invariant complete ∧ complete.complete = true) ∧ (Invariant completeLongest ∧ completeLongest.complete = true) :=
  ⟨⟨invariant_complete, rfl⟩, invariant_completeLongest, rfl⟩

theorem witness_StepKeepsInvariant :
    Invariant (with_ [input (.accept 0xCF#8) 9#32] trailerNext) ∧
    ∃ t, step (with_ [input (.accept 0xCF#8) 9#32] trailerNext) = .next t :=
  ⟨⟨by decide, by decide, by decide, by decide, by decide, by decide, by decide, by decide, by decide⟩, _, rfl⟩

theorem witness_StepAlwaysGoesOn : Invariant (with_ [input .reserved111 9#32] complete) :=
  ⟨by decide, by decide, by decide, by decide, by decide, by decide, by decide, by decide, by decide⟩

/-- Two states outside the invariant that stop. -/
theorem witness_OnlyAbsentCellsStop :
    exec (.accept 0x00#8) beyond = .fault (.bufferIndex 15) ∧
    exec .drain { State.reset with complete := true, payloadLen := 12#8 } = .fault (.bufferIndex 15) := ⟨rfl, rfl⟩

theorem witness_ExecFollowsTransitionTable :
    Invariant State.reset ∧ Invariant framing1 ∧ Invariant framing2 ∧ Invariant lengthKnown ∧ Invariant destKnown ∧
    Invariant emptyFrame ∧ Invariant trailerNext ∧ Invariant complete :=
  ⟨invariant_reset, invariant_framing1, invariant_framing2, invariant_lengthKnown, invariant_destKnown,
    invariant_emptyFrame, invariant_trailerNext, invariant_complete⟩

theorem witness_CursorAdvance :
    (∃ t, exec (.accept 0x10#8) destKnown = .next t ∧ t.event = .noEvent ∧ destKnown.complete = false) ∧
    (∃ t, exec (.accept 0xCF#8) trailerNext = .next t ∧ t.event = .frameComplete) ∧
    (∃ t, exec (.accept 0xCE#8) trailerNext = .next t ∧ t.event.resets = true) ∧
    (∃ t, exec .drain complete = .next t ∧ complete.complete = true) :=
  ⟨⟨_, rfl, rfl, rfl⟩, ⟨_, rfl, rfl⟩, ⟨_, rfl, rfl⟩, _, rfl, rfl⟩

theorem witness_CompleteIsEnteredAndLeft :
    (∃ t, exec .drain complete = .next t ∧ complete.complete = true ∧ t.complete = false) ∧
    (∃ t, exec (.accept 0xCF#8) trailerNext = .next t ∧ trailerNext.complete = false ∧ t.complete = true ∧
      t.event = .frameComplete) :=
  ⟨⟨_, rfl, rfl, rfl⟩, _, rfl, rfl, rfl, rfl⟩

theorem witness_TimestampOfLastAccept :
    (∃ t, exec (.accept 0x10#8) destKnown = .next t ∧ inProgress t) ∧
    (∃ t, exec .nop destKnown = .next t ∧ inProgress t ∧ ∀ data, Instr.nop ≠ .accept data) :=
  ⟨⟨_, rfl, by decide⟩, _, rfl, by decide, by simp⟩

/-- An `ACCEPT` and a `POLL` still to come, and a command between that does not read the time. -/
def clocked : State := with_ [input .poll 103#32, input .drain 0#32, input (.accept 0x01#8) 104#32] lengthKnown

/-- The `DRAIN` between does not read the time (R56). -/
theorem test_times : times clocked.pending = [103#32, 104#32] := by decide

theorem witness_MonotoneClockIsKept :
    MonotoneClock clocked ∧ (∃ t, step clocked = .next t) ∧
    clocked.pending = input .poll 103#32 :: [input .drain 0#32, input (.accept 0x01#8) 104#32] ∧
    (input .poll 103#32).rst = false ∧ readsNow (decodeWord (input .poll 103#32).cmd) = true :=
  ⟨by rw [MonotoneClock, test_times]; simp [clocked, with_, lengthKnown], ⟨_, rfl⟩, rfl, rfl, by decide⟩

/-- Idle with the cells and the `dest` of an earlier frame, whose last byte came at time 106 (S1 after row 8). -/
def idleAgain : State :=
  { complete with cursor := 0#4, totalLen := 0#4, payloadLen := 0#8, complete := false, now := 106#32 }

theorem witness_AlikeStatesBehaveAlike :
    Invariant State.reset ∧ Invariant idleAgain ∧ alike State.reset idleAgain ∧ isIdle State.reset ∧ isIdle idleAgain ∧
    State.reset.pending = idleAgain.pending ∧ State.reset.now ≠ idleAgain.now ∧
    State.reset.buf ≠ idleAgain.buf ∧ State.reset.dest ≠ idleAgain.dest :=
  ⟨invariant_reset, ⟨by decide, by decide, by decide, by decide, by decide, by decide, by decide, by decide, by decide⟩,
    ⟨rfl, rfl, rfl, rfl, rfl, by decide, by decide, rfl⟩, by decide⟩

/-- T0.9's start state with the `POLL` of T0.9 (time 744, the counter having wrapped) and then that of T0.10 to come. -/
def wrapping : State := with_ [input .poll 744#32, input .poll 745#32] beforeWrap

/-- The two times are the counts `2^32 + 744` and `2^32 + 745`, the timestamp the count `0xFFFFFF00`: 1000 and 1001 ms. -/
theorem witness_PremiseP2IsKept :
    PremiseP2 [4294968040, 4294968041] 0xFFFFFF00 wrapping ∧ ∃ t, step wrapping = .next t :=
  ⟨⟨by decide, by decide, by decide, by decide⟩, _, rfl⟩

/-- The same at the second `POLL`: 1001 ms. -/
theorem witness_PollMeasuresTrueTime :
    (PremiseP2 (4294968040 :: [4294968041]) 0xFFFFFF00 wrapping ∧ wrapping.pending = input .poll 744#32 :: [input .poll 745#32] ∧
      (input .poll 744#32).rst = false ∧ decodeWord (input .poll 744#32).cmd = .poll ∧ wrapping.complete = false ∧
      wrapping.ts ≠ 0#32 ∧ 4294968040 - 0xFFFFFF00 ≤ 1000) ∧
    PremiseP2 (4294968041 :: []) 0xFFFFFF00 (with_ [input .poll 745#32] beforeWrap) ∧
      1000 < 4294968041 - 0xFFFFFF00 ∧ 4294968041 - 0xFFFFFF00 < 2 ^ 32 :=
  ⟨⟨⟨by decide, by decide, by decide, by decide⟩, rfl, rfl, by decide⟩, ⟨by decide, by decide, by decide, by decide⟩,
    by decide⟩

/-- P2 does not allow the clock to step back (T5: 5000, then 4999) by a count that stays below the wrap. -/
theorem test_step_back_breaks_premise :
    ¬ MonotoneClock (with_ [input .poll 4999#32] { framing1 with ts := 5000#32 }) ∧
    ¬ PremiseP2 [4999] 5000 (with_ [input .poll 4999#32] { framing1 with ts := 5000#32 }) :=
  ⟨fun h => absurd (h.2 4999#32 (by decide)) (by decide), fun h => absurd (h.notBefore 4999 (by decide)) (by decide)⟩

/-- The same block, input and counter in other surroundings. -/
theorem witness_BlockIsTheWholeState :
    (with_ [input (.accept 0xCF#8) 9#32] trailerNext).toBlock =
      (with_ [input (.accept 0xCF#8) 9#32, input .drain 0#32] { trailerNext with event := .timeout, now := 7#32 }).toBlock ∧
    nextInput (with_ [input (.accept 0xCF#8) 9#32] trailerNext) =
      nextInput (with_ [input (.accept 0xCF#8) 9#32, input .drain 0#32] { trailerNext with event := .timeout, now := 7#32 }) ∧
    trailerNext.stepCount = State.reset.stepCount ∧
    (∃ t, step (with_ [input (.accept 0xCF#8) 9#32] trailerNext) = .next t) ∧
    step (with_ [input (.accept 0x00#8) 9#32] beyond) = .fault (.bufferIndex 15) :=
  ⟨rfl, rfl, rfl, ⟨_, rfl⟩, rfl⟩

/-- An idle block about to be fed the frame of destination 1 and payload `p` at those times. -/
def fed (p : List Byte) (times : List Time) (rest : List StepInput) : State :=
  with_ (List.zipWith acceptInput (frameBytes 0x01#8 p) times ++ rest) idleAgain

/-- The frame of S1 with a `DRAIN` after it. -/
def fedS1 : State :=
  fed [0x10#8, 0x20#8] [100#32, 101#32, 102#32, 103#32, 104#32, 105#32, 106#32] [input .drain 0#32]

/-- The longest frame, all its bytes at one time. -/
def fedLongest : State := fed (List.replicate 10 0xFF#8) (List.replicate 15 42#32) []

theorem witness_WholeFrameIsDelivered :
    Invariant fedS1 ∧ isIdle fedS1 ∧ [0x10#8, 0x20#8].length ≤ 10 ∧
    [100#32, 101#32, 102#32, 103#32, 104#32, 105#32, 106#32].length = [0x10#8, 0x20#8].length + 5 ∧
    fedS1.pending = List.zipWith acceptInput (frameBytes 0x01#8 [0x10#8, 0x20#8])
      [100#32, 101#32, 102#32, 103#32, 104#32, 105#32, 106#32] ++ [input .drain 0#32] :=
  ⟨⟨by decide, by decide, by decide, by decide, by decide, by decide, by decide, by decide, by decide⟩, by decide,
    by decide, by decide, rfl⟩

theorem witness_WholeFrameIsDelivered_longest :
    Invariant fedLongest ∧ isIdle fedLongest ∧ (List.replicate 10 0xFF#8).length ≤ 10 ∧
    (List.replicate 15 42#32).length = (List.replicate 10 0xFF#8).length + 5 ∧
    fedLongest.pending = List.zipWith acceptInput (frameBytes 0x01#8 (List.replicate 10 0xFF#8))
      (List.replicate 15 42#32) ++ [] :=
  ⟨⟨by decide, by decide, by decide, by decide, by decide, by decide, by decide, by decide, by decide⟩, by decide,
    by decide, by decide, rfl⟩

/-- The garbage of trace A11's first two rows, in the state with an earlier frame's cells. -/
def garbled : State :=
  with_ ([(0x00#8, 1#32), (0x55#8, 2#32)].map (fun g => acceptInput g.1 g.2) ++ [input (.accept 0xAA#8) 3#32]) idleAgain

theorem witness_GarbageLeavesIdle :
    Invariant garbled ∧ isIdle garbled ∧ (∀ g ∈ [((0x00#8 : Byte), (1#32 : Time)), (0x55#8, 2#32)], g.1 ≠ 0xAA#8) ∧
    garbled.pending =
      [(0x00#8, 1#32), (0x55#8, 2#32)].map (fun g => acceptInput g.1 g.2) ++ [input (.accept 0xAA#8) 3#32] :=
  ⟨⟨by decide, by decide, by decide, by decide, by decide, by decide, by decide, by decide, by decide⟩, by decide,
    by simp, rfl⟩

/-- Trace A12: a stray sentinel before a frame. -/
def stray : State :=
  with_ [acceptInput 0xAA#8 1#32, acceptInput 0xAA#8 2#32, acceptInput 0xAA#8 3#32, acceptInput 0x02#8 4#32] State.reset

theorem witness_ThirdSentinelDiscards :
    Invariant stray ∧ isIdle stray ∧
    stray.pending = acceptInput 0xAA#8 1#32 :: acceptInput 0xAA#8 2#32 :: acceptInput 0xAA#8 3#32 ::
      [acceptInput 0x02#8 4#32] :=
  ⟨⟨by decide, by decide, by decide, by decide, by decide, by decide, by decide, by decide, by decide⟩, by decide, rfl⟩

end Sys2Proof.Tests
end

section
/-! The `op` of a decoded word and what the `data` field selects (30_encoding.md R55, R58). -/

namespace Sys2Proof

/-- The word `{op, data}` as a number: what the spec writes `0x100 + b` for an `ACCEPT` (R54, R55). -/
theorem toNat_mkWord (op : BitVec 3) (data : Byte) : (mkWord op data).toNat = 0x100 * op.toNat + data.toNat := by
  rw [mkWord, BitVec.toNat_append, ← Nat.shiftLeft_add_eq_or_of_lt data.isLt, Nat.shiftLeft_eq, Nat.mul_comm]

/-- An `op` other than that of `ACCEPT` names its command alone. -/
theorem decodeFields_ignores_data {op : BitVec 3} (hop : op ≠ 1#3) (d e : Byte) :
    decodeFields op d = decodeFields op e := by
  induction op using op_cases with
  | h1 => exact absurd rfl hop
  | _ => rfl

/-- A command whose row is not `ACCEPT` is the only one with its `op`. -/
theorem eq_of_opcode_eq {i j : Instr} (h : opcode i = opcode j) (hj : opcode j ≠ 1#3) : i = j :=
  calc
    i = decodeFields (opcode j) (dataOf i) := by rw [← h, decodeFields_encode]
    _ = decodeFields (opcode j) (dataOf j) := decodeFields_ignores_data hj _ _
    _ = j := decodeFields_encode j

theorem eq_accept_of_opcode_eq {i : Instr} {b : Byte} (h : opcode i = opcode (.accept b)) :
    i = .accept (dataOf i) :=
  calc
    i = decodeFields (opcode (.accept b)) (dataOf i) := by rw [← h, decodeFields_encode]
    _ = .accept (dataOf i) := rfl

/-- Under the mask a word is the match of the row it decodes to. -/
theorem masked_eq_rowMatch_decodeWord (w : CmdWord) : w &&& rowMask = rowMatch (decodeWord w) :=
  calc
    w &&& rowMask = mkWord (opField w) 0x00#8 := by
      rw [← Laws.TableMatch.mkWord_masked _ (dataField w), mkWord_fields]
    _ = rowMatch (decodeFields (opField w) (dataField w)) := by
      generalize opField w = op
      induction op using op_cases <;> rfl

/-- A row other than `ACCEPT` is selected by its match under the mask. -/
theorem decodeWord_eq_iff_masked (w : CmdWord) {i : Instr} (hi : opcode i ≠ 1#3) :
    decodeWord w = i ↔ w &&& rowMask = rowMatch i := by
  rw [masked_eq_rowMatch_decodeWord]
  exact ⟨congrArg rowMatch, fun h => eq_of_opcode_eq (Laws.TableMatch.rows_apart h) hi⟩

/-- The row of `ACCEPT` is selected by its match under the mask. -/
theorem exists_decodeWord_eq_accept_iff_masked (w : CmdWord) :
    (∃ b, decodeWord w = .accept b) ↔ w &&& rowMask = 0x100#11 := by
  rw [masked_eq_rowMatch_decodeWord]
  constructor
  · rintro ⟨b, hb⟩
    rw [hb, rowMatch]
  · intro h
    exact ⟨_, eq_accept_of_opcode_eq (Laws.TableMatch.rows_apart (i := .accept 0x00#8) h)⟩

/-- The spec's word of an `ACCEPT` (R55). -/
theorem ofNat_accept_word (b : Byte) : BitVec.ofNat 11 (0x100 + b.toNat) = mkWord 0b001#3 b := by
  apply BitVec.eq_of_toNat_eq
  have hb : b.toNat < 256 := b.isLt
  rw [toNat_mkWord, BitVec.toNat_ofNat, BitVec.toNat_ofNat]
  omega

/-- Settles O2: a word under the mask is the match of the row it decodes to, and no two rows share a match. -/
theorem opcodeMap : Obligations.OpcodeMap := by
  refine ⟨fun w => ⟨?_, exists_decodeWord_eq_accept_iff_masked w, ?_, ?_, ?_, ?_, ?_, ?_⟩, fun b => ?accept⟩
  case accept => rw [ofNat_accept_word, decodeWord_mkWord]; rfl
  all_goals exact decodeWord_eq_iff_masked w (by decide)

/-- Settles O4: an `op` other than that of `ACCEPT` names its command alone, and the encoder's `data` field is `dataOf`. -/
theorem dataFieldIgnored : Obligations.DataFieldIgnored := by
  have ignored (op : BitVec 3) (hop : op ≠ 1#3) (d e : Byte) : decodeWord (mkWord op d) = decodeWord (mkWord op e) := by
    simpa only [decodeWord_mkWord] using decodeFields_ignores_data hop d e
  have emitted (i : Instr) : dataField (encode i) = dataOf i := dataField_mkWord _ _
  exact ⟨fun d e => ⟨ignored _ (by decide) d e, ignored _ (by decide) d e, ignored _ (by decide) d e,
    ignored _ (by decide) d e⟩, emitted .nop, emitted .poll, emitted .reset, emitted .drain, fun d => decodeWord_mkWord _ d⟩

end Sys2Proof
end

section
/-! The checksum field of a payload as arithmetic of its bytes (30_encoding.md R52). -/

namespace Sys2Proof.Machine

/-- The wraparound sum is the sum modulo `2^8`. -/
theorem toNat_sumBytes (p : List Byte) : (sumBytes p).toNat = (p.map BitVec.toNat).sum % 256 := by
  induction p with
  | nil => rfl
  | cons b bs ih => simp [sumBytes, ih]

/-- The checksum field as a number (R52). -/
theorem toNat_checksumOf (p : List Byte) : (checksumOf p).toNat = 0xFF - (p.map BitVec.toNat).sum % 256 := by
  rw [checksumOf, BitVec.toNat_not, toNat_sumBytes]

/-- The checksum does not depend on the order of the bytes (R97). -/
theorem checksumOf_perm {p q : List Byte} (h : p.Perm q) : checksumOf p = checksumOf q := by
  apply BitVec.eq_of_toNat_eq
  rw [toNat_checksumOf, toNat_checksumOf, (h.map BitVec.toNat).sum_eq]

/-- Settles O33: the wraparound sum is the sum modulo `2^8`, which no permutation changes. -/
theorem checksumField : Obligations.ChecksumField :=
  ⟨toNat_checksumOf, rfl, fun _ _ => checksumOf_perm⟩

end Sys2Proof.Machine
end

section
/-! What `ACCEPT` answers at each position of the frame (40_accept.md R68 to R74). -/

namespace Sys2Proof.Machine

open Sys2Proof.Safety

/-- A store as an update of the record. -/
theorem stored_eq (data : Byte) (s : State) :
    stored data s = { s with buf := s.buf.write s.cursor.toNat data, cursor := s.cursor + 1#4 } := by
  have hcursor : BitVec.ofNat 4 (s.cursor.toNat + 1) = s.cursor + 1#4 := by
    rw [BitVec.ofNat_add, BitVec.ofNat_toNat, BitVec.setWidth_eq]
  rw [← hcursor]
  rfl

/-- What a raised event leaves, as an update of the record: the time stamped before it is lost (R86, R69). -/
theorem raise_stampTime (e : Event) (s : State) :
    raise e (stampTime s) = { s with
      cursor := 0#4, totalLen := 0#4, payloadLen := 0#8, complete := false, ts := 0#32,
      event := e, result := none } := rfl

/-- While a complete frame is held the byte is dropped (R68). -/
theorem execAccept_of_complete {data : Byte} {s : State} (hc : s.complete = true) :
    execAccept data s = .next (finish .backpressureDrop none s) := if_pos hc

/-- A byte other than the sentinel at position 0 or 1 discards the frame (R70). -/
theorem execAccept_of_bad_framing {data : Byte} {s : State} (hc : s.complete = false) (h2 : s.cursor.toNat < 2)
    (hd : data ≠ 0xAA#8) : execAccept data s = .next (raise .framingError (stampTime s)) := by
  rw [execAccept, if_neg (by simp [hc]), acceptArm, if_pos (by simpa using h2), acceptFraming, if_neg (by simpa using hd)]

/-- A length above the capacity discards the frame (R71). -/
theorem execAccept_of_excess_length {data : Byte} {s : State} (hc : s.complete = false) (h2 : s.cursor.toNat = 2)
    (hd : 15 < data.toNat + 5) : execAccept data s = .next (raise .capacityViolation (stampTime s)) := by
  rw [execAccept, if_neg (by simp [hc]), acceptArm, if_neg (by simp [h2]), if_pos (by simpa using h2), acceptLength,
    if_pos ((exceedsCapacity_iff data).2 hd)]

/-- An `ACCEPT` that stores its byte without bringing `cursor` to `total_len` ends there, with label None (R74). -/
theorem execAccept_of_stores_unfilled {data : Byte} {s : State} (hc : s.complete = false) (hlt : s.cursor.toNat < 15)
    (h2 : s.cursor.toNat < 2 → isSentinel data = true) (h3 : s.cursor.toNat = 2 → exceedsCapacity data = false)
    (hne : s.cursor.toNat + 1 ≠ (armState data s).totalLen.toNat) :
    execAccept data s = .next (finish .noEvent none (stored data (armState data s))) := by
  have hlt' : (armState data s).cursor.toNat < 15 := by rwa [armState_cursor]
  rw [execAccept_of_stores hc hlt h2 h3]
  apply completionCheck_of_not_filled
  rw [← Bool.not_eq_true, frameFilled_stored hlt', armState_cursor]
  exact hne.symm

/-- From position 4 on the byte is stored, whatever it is, and the completion check follows (R73). -/
theorem execAccept_body {data : Byte} {s : State} (hc : s.complete = false) (h4 : 4 ≤ s.cursor.toNat)
    (hlt : s.cursor.toNat < 15) : execAccept data s = completionCheck (stored data (stampTime s)) := by
  rw [execAccept_of_stores hc hlt (by omega) (by omega), armState_other (by omega) (by omega)]

/-- The completion check of a filled frame is the comparison of the trailer with the checksum (R74). -/
theorem completionCheck_of_filled {s : State} (hf : frameFilled s = true) (ht : trailerIndex s < 15) :
    completionCheck s = if checksumMatches s then .next (finish .frameComplete none (markComplete s))
      else .next (raise .checksumFailure s) := by
  rw [completionCheck, if_pos hf, if_pos ((inBuf_iff _).2 ht)]

/-- The trailer's comparison with the checksum, where the trailer cell holds `data` (R74). -/
theorem checksumMatches_iff_of_trailer {s : State} {data : Byte} (h : s.buf.read (trailerIndex s) = some data) :
    checksumMatches s = true ↔ csum s s.payloadLen.toNat = data := by
  rw [checksumMatches, readCell_of_some h, beq_iff_eq]

/-- By I2 the byte that will fill the frame goes to the trailer's cell. -/
theorem trailerIndex_eq_cursor {s : State} (hi : I2 s) (h : s.cursor.toNat + 1 = s.totalLen.toNat) :
    trailerIndex s = s.cursor.toNat := by
  have hne : s.totalLen ≠ 0#4 := by
    intro h0
    simp [h0] at h
  have htotal : s.totalLen.toNat = s.payloadLen.toNat + 5 := hi.1 hne
  have htrailer : trailerIndex s = 4 + s.payloadLen.toNat := rfl
  omega

/-- Settles O8: the backpressure test comes before everything else. -/
theorem acceptDropsWhileComplete : Obligations.AcceptDropsWhileComplete :=
  fun _ _ => execAccept_of_complete

/-- Settles O9: a sentinel is stored and, with no total length known, does not fill a frame. -/
theorem acceptFramingByte : Obligations.AcceptFramingByte := by
  intro data s hc h2 ht
  refine ⟨fun hd => ?_, fun hd => execAccept_of_bad_framing hc h2 hd⟩
  have harm : armState data s = stampTime s := armState_other (by omega) (by omega)
  rw [exec, execAccept_of_stores_unfilled hc (by omega) (fun _ => (isSentinel_iff data).2 hd) (by omega)
    (by simp [harm, ht]), harm, stored_eq]
  rfl

/-- Settles O10: a total length within the capacity is at least 5, so that cursor 3 does not reach it. -/
theorem acceptLengthByte : Obligations.AcceptLengthByte := by
  intro data s hc h2
  have h2' : s.cursor.toNat = 2 := by simp [h2]
  refine ⟨fun hd => ?_, fun hd => execAccept_of_excess_length hc h2' hd, by omega⟩
  have htotal : (BitVec.ofNat 4 (data.toNat + 5)).toNat = data.toNat + 5 := by
    rw [BitVec.toNat_ofNat]
    omega
  refine ⟨BitVec.ofNat 4 (data.toNat + 5), htotal, ?_⟩
  have harm : armState data s = setLengths data (stampTime s) := armState_two h2'
  have hne : s.cursor.toNat + 1 ≠ (armState data s).totalLen.toNat := by
    rw [harm]
    exact fun h => absurd (h.trans htotal) (by omega)
  rw [exec, execAccept_of_stores_unfilled hc (by omega) (by omega) (fun _ => (exceedsCapacity_false_iff data).2 hd) hne,
    harm, stored_eq, setLengths_cursor, stampTime_cursor, h2]
  rfl

/-- Settles O11: by I1 no frame has total length 4, so that cursor 4 does not fill one. -/
theorem acceptDestinationByte : Obligations.AcceptDestinationByte := by
  intro data s hc h3 hi
  have h3' : s.cursor.toNat = 3 := by simp [h3]
  have harm : armState data s = setDest data (stampTime s) := armState_three h3'
  have hne : s.cursor.toNat + 1 ≠ (armState data s).totalLen.toNat := by
    rw [harm, setDest_totalLen, stampTime_totalLen]
    rcases hi with h0 | ⟨h5, -⟩
    · simp [h0]
    · have h5 : 5 ≤ s.totalLen.toNat := h5
      omega
  rw [exec, execAccept_of_stores_unfilled hc (by omega) (by omega) (by omega) hne, harm, stored_eq, setDest_cursor,
    stampTime_cursor, h3]
  rfl

/-- Settles O12: from position 4 on there is no test before the store. -/
theorem acceptPayloadByte : Obligations.AcceptPayloadByte := by
  intro data s hc h4 hlt body
  have hbody : stored data (stampTime s) = body := stored_eq data (stampTime s)
  have harm : armState data s = stampTime s := armState_other (by omega) (by omega)
  refine ⟨by rw [exec, execAccept_body hc h4 hlt, hbody], fun hne => ?_⟩
  rw [exec, execAccept_of_stores_unfilled hc hlt (by omega) (by omega) (by rwa [harm]), harm, hbody]
  rfl

/-- Settles O13: the byte that fills the frame stands in the trailer's cell (I2), where the completion check reads it. -/
theorem acceptTrailerByte : Obligations.AcceptTrailerByte := by
  refine ⟨fun s h => ?_, ?_⟩
  · exact completionCheck_of_not_filled (Bool.eq_false_iff.2 fun hf => h ((frameFilled_iff s).1 hf))
  intro data s hi hc h4 hlast frame
  have hlt : s.cursor.toNat < 15 := by
    have := s.totalLen.isLt
    omega
  have hframe : stored data (stampTime s) = frame := by
    have hcursor : s.cursor + 1#4 = s.totalLen := by bv_omega
    rw [stored_eq, stampTime_cursor, hcursor]
    rfl
  have hcell : trailerIndex frame = s.cursor.toNat := trailerIndex_eq_cursor hi.i2 hlast
  have hread : frame.buf.read (trailerIndex frame) = some data := by
    rw [hcell]
    exact Memory.read_write_same _ _ _
  have hfilled : frameFilled frame = true := by
    rw [← hframe]
    exact (frameFilled_stored (s := stampTime s) hlt).2 hlast.symm
  have hexec : exec (.accept data) s = if checksumMatches frame then .next (finish .frameComplete none (markComplete frame))
      else .next (raise .checksumFailure frame) := by
    rw [exec, execAccept_body hc h4 hlt, hframe, completionCheck_of_filled hfilled (by omega)]
  have hmatches := checksumMatches_iff_of_trailer hread
  refine ⟨hread, fun hsum => ?_, fun hsum => ?_⟩
  · rw [hexec, if_pos (hmatches.2 hsum)]
    rfl
  · rw [hexec, if_neg (fun hm => hsum (hmatches.1 hm))]
    rfl

/-- Settles O14: a discarded frame leaves cursor 0 and a completed one `complete` = 1, both with `ts` 0; a stored byte that does
neither leaves the frame in progress with the time stamped. -/
theorem acceptRecordsTime : Obligations.AcceptRecordsTime := by
  intro data s t hc h
  rcases execAccept_cases h with ⟨hdrop, -⟩ | ⟨-, -, -, rfl⟩ | ⟨-, -, -, rfl⟩ | ⟨-, hlt, -, -, hcheck⟩
  · simp [hc] at hdrop
  · simp [inProgress]
  · simp [inProgress]
  rcases completionCheck_cases hcheck with ⟨-, rfl⟩ | ⟨-, -, -, rfl⟩ | ⟨-, -, -, rfl⟩
  · have hcursor : (stored data (armState data s)).cursor.toNat = s.cursor.toNat + 1 := by
      rw [stored_cursor_toNat (by simpa using hlt), armState_cursor]
    have hprogress : inProgress (finish .noEvent none (stored data (armState data s))) :=
      ⟨by simp [hc], by rw [finish_cursor, hcursor]; omega⟩
    exact ⟨fun _ => by simp, fun hn => absurd hprogress hn⟩
  · simp [inProgress]
  · simp [inProgress]

end Sys2Proof.Machine
end

section
/-! What `POLL` answers, and the time difference it tests (41_poll.md R80 to R83). -/

namespace Sys2Proof.Machine

/-- When the watchdog fires the frame in progress is discarded (R81). -/
theorem execPoll_of_fires {s : State} (h : watchdogFires s = true) : execPoll s = .next (raise .timeout s) := if_pos h

/-- When the watchdog does not fire nothing changes (R81). -/
theorem execPoll_of_not_fires {s : State} (h : ¬ watchdogFires s = true) :
    execPoll s = .next (finish .noEvent none s) := if_neg h

/-- With the clock not behind `ts` the difference is the ordinary one (R83). -/
theorem toNat_elapsed_of_le {s : State} (h : s.ts.toNat ≤ s.now.toNat) :
    (elapsed s).toNat = s.now.toNat - s.ts.toNat :=
  BitVec.toNat_sub_of_le h

/-- With the clock behind `ts` the difference counts through the wrap of the counter (R83). -/
theorem toNat_elapsed_of_lt {s : State} (h : s.now.toNat < s.ts.toNat) :
    (elapsed s).toNat = s.now.toNat + 2 ^ 32 - s.ts.toNat :=
  calc
    (elapsed s).toNat = 2 ^ 32 - (s.ts.toNat - s.now.toNat) := BitVec.toNat_sub_of_lt h
    _ = s.now.toNat + 2 ^ 32 - s.ts.toNat := by omega

/-- Settles O17: the two branches of `POLL`, the watchdog's condition read as R80 writes it. -/
theorem pollTimesOut : Obligations.PollTimesOut := by
  intro s
  rw [← watchdogFires_iff]
  exact ⟨execPoll_of_fires, execPoll_of_not_fires⟩

/-- Settles O18: the difference on each side of the wrap. -/
theorem elapsedIsModular : Obligations.ElapsedIsModular :=
  fun _ => ⟨toNat_elapsed_of_le, toNat_elapsed_of_lt⟩

end Sys2Proof.Machine
end

section
/-! What `RESET` and `DRAIN` answer, and the frame held in a complete state (42_reset_drain_nop.md R86 to R89). -/

namespace Sys2Proof.Machine

open Sys2Proof.Safety

/-- By I8 the reset primitive has nothing to clear where `cursor` is 0. -/
theorem coreReset_of_cursor_zero {s : State} (hi : I8 s) (h0 : s.cursor = 0#4) : coreReset s = s := by
  obtain ⟨⟨buf, cursor, totalLen, payloadLen, dest, complete, ts⟩, surroundings⟩ := s
  obtain ⟨hcomplete, htotal, hpayload, hts⟩ := hi h0
  subst h0 hcomplete htotal hpayload hts
  rfl

/-- The reset primitive leaves the idle state (R86, R26). -/
theorem phase_coreReset (s : State) : phase (coreReset s) = .idle :=
  (phase_idle_iff _).2 ⟨coreReset_complete s, congrArg BitVec.toNat (coreReset_cursor s)⟩

/-- While complete, with every payload cell in `BUF`, `DRAIN` delivers the frame and resets (R88). -/
theorem execDrain_of_complete {s : State} (hc : s.complete = true) (hb : payloadInBuf s = true) :
    execDrain s = .next (finish .noEvent (some (drainFrame s)) (coreReset s)) := by
  rw [execDrain, if_pos hc, if_pos hb]

/-- While not complete `DRAIN` does nothing (R89). -/
theorem execDrain_of_not_complete {s : State} (hc : s.complete = false) :
    execDrain s = .next (finish .noEvent none s) :=
  if_neg (Bool.eq_false_iff.1 hc)

/-- By I2 and I4 a complete frame's cells are the `payload_len + OVERHEAD` below `cursor`. -/
theorem cursor_of_complete {s : State} (hi : Invariant s) (hc : s.complete = true) :
    s.cursor.toNat = s.payloadLen.toNat + 5 := by
  obtain ⟨hknown, hcursor, -⟩ := hi.i4 hc
  rw [hcursor]
  exact hi.i2.1 hknown

/-- By I3 a complete frame's payload is at most `MAX_PAYLOAD` bytes. -/
theorem payloadLen_le_of_complete {s : State} (hi : Invariant s) (hc : s.complete = true) :
    s.payloadLen.toNat ≤ 10 := by
  have hcursor := cursor_of_complete hi hc
  have hle : s.cursor.toNat ≤ 15 := hi.i3.1
  omega

/-- By I6 a complete frame's destination is held. -/
theorem dest_isSome_of_complete {s : State} (hi : Invariant s) (hc : s.complete = true) : s.dest.isSome = true := by
  obtain ⟨-, -, -, -, hdest⟩ := hi.i6
  have hcursor := cursor_of_complete hi hc
  exact (hdest (by omega)).1

/-- By I6 every payload cell of a complete frame is held. -/
theorem payload_isSome_of_complete {s : State} (hi : Invariant s) (hc : s.complete = true) {i : Nat}
    (h : i < s.payloadLen.toNat) : (s.buf.read (4 + i)).isSome = true := by
  obtain ⟨hcells, -⟩ := hi.i6
  have hcursor := cursor_of_complete hi hc
  exact hcells _ (by omega)

/-- A destination that is held is the one `DRAIN` reads (R88). -/
theorem readDest_of_some {s : State} {d : Byte} (h : s.dest = some d) : readDest s = d := by
  rw [readDest, h, Option.getD_some]

/-- A destination that is held is the one `out_dest` shows (R94). -/
theorem outDest_of_some {s : State} {d : Byte} (look : Nat) (h : s.dest = some d) : outDest look s = d := by
  rw [outDest, h, Option.getD_some]

/-- A byte held in a cell of `BUF` is the one `buf_data` shows there (R96). -/
theorem bufData_of_some {s : State} {idx : Cur} {v : Byte} (look : Nat) (hlt : idx.toNat < 15)
    (h : s.buf.read idx.toNat = some v) : bufData look idx s = v := by
  rw [bufData, if_pos ((inBuf_iff _).2 hlt), h, Option.getD_some]

@[simp] theorem length_payloadCells (s : State) : (payloadCells s).length = s.payloadLen.toNat := by
  simp [payloadCells]

/-- A payload cell that is held is delivered at its place (R88). -/
theorem payloadCells_getElem?_of_some {s : State} {i : Nat} {v : Byte} (hi : i < s.payloadLen.toNat)
    (h : s.buf.read (4 + i) = some v) : (payloadCells s)[i]? = some v := by
  have hcell : readCell s (payloadIndex i) = v := readCell_of_some h
  rw [payloadCells, List.getElem?_map, List.getElem?_range hi, Option.map_some, hcell]

/-- The payload delivered is what the cells from `BUF[HDR]` on hold (R88). -/
theorem payloadCells_getElem?_of_complete {s : State} (hi : Invariant s) (hc : s.complete = true) {i : Nat}
    (h : i < s.payloadLen.toNat) : (payloadCells s)[i]? = s.buf.read (4 + i) := by
  obtain ⟨v, hv⟩ := Option.isSome_iff_exists.1 (payload_isSome_of_complete hi hc h)
  rw [hv, payloadCells_getElem?_of_some h hv]

/-- The payload delivered is what `buf_data` shows from index `HDR` on (R88, R96). -/
theorem bufData_of_payloadCells {s : State} (hi : Invariant s) (hc : s.complete = true) (look : Nat) {i : Nat} {b : Byte}
    (h : (payloadCells s)[i]? = some b) : bufData look (BitVec.ofNat 4 (4 + i)) s = b := by
  have hlt : i < s.payloadLen.toNat := by
    obtain ⟨hlt, -⟩ := List.getElem?_eq_some_iff.1 h
    rwa [length_payloadCells] at hlt
  have hle := payloadLen_le_of_complete hi hc
  have hidx : (BitVec.ofNat 4 (4 + i)).toNat = 4 + i := by
    rw [BitVec.toNat_ofNat]
    omega
  apply bufData_of_some look (by omega)
  rw [hidx, ← payloadCells_getElem?_of_complete hi hc hlt, h]

/-- Settles O20: the reset primitive is that update of the record, and the idle state it leaves is read off two of the registers
it clears. -/
theorem coreResetClears : Obligations.CoreResetClears :=
  fun s => ⟨rfl, rfl, phase_coreReset s⟩

/-- Settles O21: `RESET` is the reset primitive, which by I8 has nothing to clear in the idle state. -/
theorem resetReturnsToIdle : Obligations.ResetReturnsToIdle := by
  refine fun s => ⟨rfl, fun hi hidle => ?_⟩
  obtain ⟨-, hcursor⟩ := (phase_idle_iff s).1 hidle
  have h0 : s.cursor = 0#4 := BitVec.eq_of_toNat_eq hcursor
  rw [exec, execReset, coreReset_of_cursor_zero hi.i8 h0]
  rfl

/-- Settles O22: by I6 the destination and every payload cell of a complete frame are held, so that `DRAIN` and the outputs read
no free value. -/
theorem drainDeliversFrame : Obligations.DrainDeliversFrame := by
  intro s hi hc
  have hle := payloadLen_le_of_complete hi hc
  obtain ⟨d, hd⟩ := Option.isSome_iff_exists.1 (dest_isSome_of_complete hi hc)
  have hdest : (drainFrame s).dest = d := readDest_of_some hd
  refine ⟨drainFrame s, ?answer, by rw [hdest, hd], rfl, length_payloadCells s,
    fun i h => payloadCells_getElem?_of_complete hi hc h,
    fun look => ⟨by rw [hdest, outDest_of_some look hd], rfl, fun i b h => bufData_of_payloadCells hi hc look h⟩⟩
  case answer =>
    rw [exec, execDrain_of_complete hc ((payloadInBuf_iff s).2 (by omega))]
    rfl

/-- Settles O23: without a complete frame `DRAIN` does nothing, a frame in progress included. -/
theorem drainOfNothing : Obligations.DrainOfNothing :=
  fun _ => execDrain_of_not_complete

end Sys2Proof.Machine
end

section
/-! The checksum as a formula over the payload cells (R97). -/

namespace Sys2Proof.Machine

/-- The wraparound sum of the payload cells is the sum of their values modulo 256, since a discarded carry is a multiple of 256
(R97). `toNat_sumBytes` is the same of a list, which grows at its front where the cells are added at the end. -/
theorem toNat_sumCells (s : State) (n : Nat) :
    (sumCells s n).toNat = ((List.range n).map (fun i => (readCell s (payloadIndex i)).toNat)).sum % 256 := by
  induction n with
  | zero => rfl
  | succ n ih =>
    rw [sumCells, BitVec.toNat_add, ih, Nat.mod_add_mod, List.range_succ, List.map_append, List.sum_append, List.map_singleton,
      List.sum_singleton]

/-- The checksum of the first `n` payload cells as a number (R97). -/
theorem toNat_csum (s : State) (n : Nat) :
    (csum s n).toNat = 0xFF - ((List.range n).map (fun i => (readCell s (payloadIndex i)).toNat)).sum % 256 := by
  rw [csum, BitVec.toNat_not, toNat_sumCells]

/-- The complement of the checksum is the wraparound sum itself. -/
@[simp] theorem not_csum (s : State) (n : Nat) : ~~~ (csum s n) = sumCells s n :=
  BitVec.not_not

/-- Settles O31: the complement turns the wraparound sum, which is the sum of the cells modulo 256, into `0xFF` less it, and taken
again it gives back the sum, to which each further cell is added. -/
theorem checksumFormula : Obligations.ChecksumFormula := by
  refine ⟨toNat_csum, csum_zero, fun s n => ?_⟩
  rw [not_csum, not_csum]
  rfl

end Sys2Proof.Machine
end

section
/-! How a step comes by its label, and what each of the five errors is caused by and does (60_exceptions.md R111 to R117). -/

namespace Sys2Proof.Machine

open Sys2Proof.Safety

/-- The table of R111, a constructor for each label: the command that ends with it from `s`, the case it does so in, and the state it
leaves. `exec_labelled` ties it to `exec`; of a step with label None it says no more than the label. -/
inductive Labelled (s : State) : Instr → Event → State → Prop
  | noEvent {i : Instr} {t : State} : Labelled s i .noEvent t
  | framingError {data : Byte} (hc : s.complete = false) (hcursor : s.cursor.toNat < 2) (hdata : data ≠ 0xAA#8) :
      Labelled s (.accept data) .framingError (raise .framingError (stampTime s))
  | capacityViolation {data : Byte} (hc : s.complete = false) (hcursor : s.cursor.toNat = 2) (hdata : 15 < data.toNat + 5) :
      Labelled s (.accept data) .capacityViolation (raise .capacityViolation (stampTime s))
  | checksumFailure {data : Byte} (hc : s.complete = false) (hlast : s.cursor.toNat + 1 = s.totalLen.toNat) :
      Labelled s (.accept data) .checksumFailure (raise .checksumFailure (stored data (armState data s)))
  | timeout (hfires : watchdogFires s = true) : Labelled s .poll .timeout (raise .timeout s)
  | backpressureDrop {data : Byte} (hc : s.complete = true) :
      Labelled s (.accept data) .backpressureDrop (finish .backpressureDrop none s)
  | frameComplete {data : Byte} (hc : s.complete = false) (hlast : s.cursor.toNat + 1 = s.totalLen.toNat) :
      Labelled s (.accept data) .frameComplete (finish .frameComplete none (markComplete (stored data (armState data s))))

/-- A stored byte that fills the frame brings `cursor` to the `total_len` held before it: the length byte, which sets `total_len`, sets
it to 5 at least and fills no frame. -/
theorem totalLen_of_filled {data : Byte} {s : State} (hlt : s.cursor.toNat < 15)
    (hlength : s.cursor.toNat = 2 → exceedsCapacity data = false)
    (hf : frameFilled (stored data (armState data s)) = true) : s.cursor.toNat + 1 = s.totalLen.toNat := by
  have htotal := (frameFilled_stored (by rwa [armState_cursor])).1 hf
  rw [armState_cursor] at htotal
  by_cases h2 : s.cursor.toNat = 2
  · have hle := (exceedsCapacity_false_iff data).1 (hlength h2)
    rw [armState_two h2, setLengths_totalLen, BitVec.toNat_ofNat, Config.overhead_eq] at htotal
    omega
  · obtain ⟨-, -, -, -, -, -, -, hkeeps, -⟩ := armState_spec data s
    obtain ⟨hkept, -⟩ := hkeeps h2
    rw [← htotal, hkept]

/-- `ACCEPT` labels its step as the table says. -/
theorem execAccept_labelled {data : Byte} {s t : State} (h : execAccept data s = .next t) :
    Labelled s (.accept data) t.event t := by
  rcases execAccept_cases h with ⟨hc, rfl⟩ | ⟨hc, h2, hd, rfl⟩ | ⟨hc, h2, hd, rfl⟩ | ⟨hc, hlt, -, hlength, hcheck⟩
  · exact .backpressureDrop hc
  · exact .framingError hc h2 ((isSentinel_false_iff data).1 hd)
  · exact .capacityViolation hc h2 ((exceedsCapacity_iff data).1 hd)
  · rcases completionCheck_cases hcheck with ⟨-, rfl⟩ | ⟨hf, -, -, rfl⟩ | ⟨hf, -, -, rfl⟩
    · exact .noEvent
    · exact .frameComplete hc (totalLen_of_filled hlt hlength hf)
    · exact .checksumFailure hc (totalLen_of_filled hlt hlength hf)

/-- Every command labels its step as the table says (R111). -/
theorem exec_labelled {i : Instr} {s t : State} (h : exec i s = .next t) : Labelled s i t.event t := by
  cases i with
  | accept data => exact execAccept_labelled h
  | poll =>
    rcases execPoll_cases h with ⟨hfires, rfl⟩ | ⟨-, rfl⟩
    · exact .timeout hfires
    · exact .noEvent
  | drain => rcases execDrain_cases h with ⟨-, -, rfl⟩ | ⟨-, rfl⟩ <;> exact .noEvent
  | nop | reset | reserved101 | reserved110 | reserved111 => cases h; exact .noEvent

section
variable {i : Instr} {s t : State}

/-- The row of the table for the label a step is known to have. -/
theorem labelled_of_event {e : Event} (h : exec i s = .next t) (he : t.event = e) : Labelled s i e t := he ▸ exec_labelled h

/-- A command that answers two states answers one: its label is read off either. -/
theorem event_eq_of_exec {u : State} (h : exec i s = .next t) (hu : exec i s = .next u) : t.event = u.event :=
  congrArg (fun x : State => x.event) (Host.Outcome.next.inj (h.symm.trans hu))

/-- R113, in every state. -/
theorem framingError_iff (h : exec i s = .next t) : t.event = .framingError ↔
    ∃ data, i = .accept data ∧ s.complete = false ∧ s.cursor.toNat < 2 ∧ data ≠ 0xAA#8 := by
  constructor
  · intro he
    cases labelled_of_event h he with
    | framingError hc hcursor hdata => exact ⟨_, rfl, hc, hcursor, hdata⟩
  · rintro ⟨data, rfl, hc, hcursor, hdata⟩
    exact event_eq_of_exec h (execAccept_of_bad_framing hc hcursor hdata)

/-- R114, in every state. -/
theorem capacityViolation_iff (h : exec i s = .next t) : t.event = .capacityViolation ↔
    ∃ data, i = .accept data ∧ s.complete = false ∧ s.cursor = 2#4 ∧ 15 < data.toNat + 5 := by
  constructor
  · intro he
    cases labelled_of_event h he with
    | capacityViolation hc hcursor hdata => exact ⟨_, rfl, hc, BitVec.eq_of_toNat_eq hcursor, hdata⟩
  · rintro ⟨data, rfl, hc, hcursor, hdata⟩
    exact event_eq_of_exec h (execAccept_of_excess_length hc (congrArg BitVec.toNat hcursor) hdata)

/-- R116, in every state. -/
theorem timeout_iff (h : exec i s = .next t) : t.event = .timeout ↔
    i = .poll ∧ s.complete = false ∧ s.ts ≠ 0#32 ∧ 1000 < (s.now - s.ts).toNat := by
  rw [← watchdogFires_iff]
  constructor
  · intro he
    cases labelled_of_event h he with
    | timeout hfires => exact ⟨rfl, hfires⟩
  · rintro ⟨rfl, hfires⟩
    exact event_eq_of_exec h (execPoll_of_fires hfires)

/-- R117, in every state. -/
theorem backpressureDrop_iff (h : exec i s = .next t) : t.event = .backpressureDrop ↔
    s.complete = true ∧ ∃ data, i = .accept data := by
  constructor
  · intro he
    cases labelled_of_event h he with
    | backpressureDrop hc => exact ⟨hc, _, rfl⟩
  · rintro ⟨hc, data, rfl⟩
    exact event_eq_of_exec h (execAccept_of_complete hc)

/-- The two labels of a filled frame stand only at the `ACCEPT` that brings `cursor` to `total_len` (R111). -/
theorem last_byte_of_event (h : exec i s = .next t) (he : t.event = .checksumFailure ∨ t.event = .frameComplete) :
    (∃ data, i = .accept data) ∧ s.complete = false ∧ s.cursor.toNat + 1 = s.totalLen.toNat := by
  rcases he with he | he
  · cases labelled_of_event h he with
    | checksumFailure hc hlast => exact ⟨⟨_, rfl⟩, hc, hlast⟩
  · cases labelled_of_event h he with
    | frameComplete hc hlast => exact ⟨⟨_, rfl⟩, hc, hlast⟩

/-- The labels marked as resetting are those of `raise` (R111, R121). -/
theorem exists_raise_of_resets (h : exec i s = .next t) (hr : t.event.resets = true) : ∃ e u, t = raise e u := by
  generalize he : t.event = e at hr
  cases labelled_of_event h he with
  | framingError | capacityViolation | checksumFailure | timeout => exact ⟨_, _, rfl⟩
  | noEvent | backpressureDrop | frameComplete => cases hr

/-- A label marked as resetting leaves the five registers 0. -/
theorem registers_of_resets (h : exec i s = .next t) (hr : t.event.resets = true) :
    t.cursor = 0#4 ∧ t.totalLen = 0#4 ∧ t.payloadLen = 0#8 ∧ t.complete = false ∧ t.ts = 0#32 := by
  obtain ⟨e, u, rfl⟩ := exists_raise_of_resets h hr
  exact ⟨rfl, rfl, rfl, rfl, rfl⟩

/-- The labels of a frame held leave it held. -/
theorem complete_of_event (h : exec i s = .next t) (he : t.event = .backpressureDrop ∨ t.event = .frameComplete) :
    t.complete = true := by
  rcases he with he | he
  · cases labelled_of_event h he with
    | backpressureDrop hc => exact hc
  · cases labelled_of_event h he with
    | frameComplete => rfl

end

/-- The column "Resets the block?" marks the codes 1 to 4 (R111). -/
theorem resets_iff_code (e : Event) : e.resets = true ↔ 1 ≤ e.code ∧ e.code ≤ 4 := by
  cases e <;> decide

/-- Settles O28: each label's row of the table, read off `exec_labelled`. -/
theorem eventCodes : Obligations.EventCodes := by
  refine ⟨rfl, rfl, rfl, rfl, rfl, rfl, rfl, resets_iff_code, fun i s t h => ⟨fun he => ?framing, fun he => ?capacity,
    fun he => ?filled, fun he => ((timeout_iff h).1 he).1, fun he => ((backpressureDrop_iff h).1 he).symm,
    registers_of_resets h, complete_of_event h⟩⟩
  case framing =>
    obtain ⟨data, hi, -, hcursor, -⟩ := (framingError_iff h).1 he
    exact ⟨⟨data, hi⟩, by bv_omega⟩
  case capacity =>
    obtain ⟨data, hi, -, hcursor, -⟩ := (capacityViolation_iff h).1 he
    exact ⟨⟨data, hi⟩, hcursor⟩
  case filled =>
    obtain ⟨hi, -, hlast⟩ := last_byte_of_event h he
    exact ⟨hi, hlast⟩

/-- By I1 the byte that fills the frame comes at position 4 or later. -/
theorem four_le_cursor_of_last {s : State} (hi : I1 s) (hlast : s.cursor.toNat + 1 = s.totalLen.toNat) :
    4 ≤ s.cursor.toNat := by
  rcases hi with h0 | ⟨h5, -⟩
  · simp [h0] at hlast
  · have h5 : 5 ≤ s.totalLen.toNat := h5
    omega

/-- Under the invariant the byte that fills the frame completes it or discards it, as it equals the checksum of the payload held or
not (R74, R115): it goes to the trailer's cell, which the checksum does not read. -/
theorem event_of_last_byte {data : Byte} {s t : State} (hi : Invariant s) (hc : s.complete = false)
    (hlast : s.cursor.toNat + 1 = s.totalLen.toNat) (h : exec (.accept data) s = .next t) :
    t.event = if data = csum s s.payloadLen.toNat then .frameComplete else .checksumFailure := by
  obtain ⟨-, hcompletes, hdiscards⟩ :=
    acceptTrailerByte.2 data s hi hc (four_le_cursor_of_last hi.i1 hlast) hlast
  have htrailer : 4 + s.payloadLen.toNat = s.cursor.toNat := trailerIndex_eq_cursor hi.i2 hlast
  have hcsum : csum { s with buf := s.buf.write s.cursor.toNat data, cursor := s.totalLen, ts := s.now }
      s.payloadLen.toNat = csum s s.payloadLen.toNat := by
    apply csum_congr
    intro k hk
    have hne : payloadIndex k ≠ s.cursor.toNat := by
      rw [payloadIndex, Config.hdr_eq]
      omega
    simp only [readCell, Memory.read_write_ne _ _ hne]
  rw [hcsum] at hcompletes hdiscards
  split
  next hsum => exact event_eq_of_exec h (hcompletes hsum.symm)
  next hsum => exact event_eq_of_exec h (hdiscards (Ne.symm hsum))

section
variable {i : Instr} {s t : State}

/-- R115, under the invariant. -/
theorem checksumFailure_iff (hi : Invariant s) (h : exec i s = .next t) : t.event = .checksumFailure ↔
    ∃ data, i = .accept data ∧ s.complete = false ∧ s.totalLen ≠ 0#4 ∧ s.cursor.toNat + 1 = s.totalLen.toNat ∧
      data ≠ csum s s.payloadLen.toNat := by
  constructor
  · intro he
    obtain ⟨⟨data, rfl⟩, hc, hlast⟩ := last_byte_of_event h (.inl he)
    refine ⟨data, rfl, hc, fun h0 => by simp [h0] at hlast, hlast, fun hsum => ?_⟩
    have hevent := event_of_last_byte hi hc hlast h
    rw [if_pos hsum, he] at hevent
    cases hevent
  · rintro ⟨data, rfl, hc, -, hlast, hsum⟩
    rw [event_of_last_byte hi hc hlast h, if_neg hsum]

/-- Under the invariant a label marked as resetting leaves `dest`: the destination byte, which sets it, fills no frame (R86, I1). -/
theorem dest_of_resets (hi : Invariant s) (h : exec i s = .next t) (hr : t.event.resets = true) : t.dest = s.dest := by
  generalize he : t.event = e at hr
  cases labelled_of_event h he with
  | framingError | capacityViolation | timeout => rfl
  | checksumFailure hc hlast =>
    have h4 := four_le_cursor_of_last hi.i1 hlast
    rw [raise_dest, stored_dest, armState_other (by omega) (by omega), stampTime_dest]
  | noEvent | backpressureDrop | frameComplete => cases hr

/-- The errors that discard a frame without storing a byte leave every cell (R113, R114, R116). -/
theorem buf_of_event (h : exec i s = .next t)
    (he : t.event = .framingError ∨ t.event = .capacityViolation ∨ t.event = .timeout) : t.buf = s.buf := by
  rcases he with he | he | he <;> cases labelled_of_event h he <;> rfl

/-- A dropped byte changes nothing but the report of the step (R117). -/
theorem eq_of_backpressureDrop (h : exec i s = .next t) (he : t.event = .backpressureDrop) :
    t = { s with event := .backpressureDrop, result := none } := by
  cases labelled_of_event h he with
  | backpressureDrop => rfl

end

/-- Settles O29: the cause of each error as an equivalence, of which only that of `ChecksumFailure` needs the invariant, and the
effects by the label's row of the table. -/
theorem errorEvents : Obligations.ErrorEvents := by
  intro i s t hi h
  refine ⟨framingError_iff h, capacityViolation_iff h, checksumFailure_iff hi h, timeout_iff h, backpressureDrop_iff h,
    fun hr => ?registers, buf_of_event h, eq_of_backpressureDrop h⟩
  case registers =>
    obtain ⟨hcursor, htotal, hpayload, hcomplete, hts⟩ := registers_of_resets h hr
    exact ⟨hcursor, htotal, hpayload, hcomplete, hts, dest_of_resets hi h hr⟩

end Sys2Proof.Machine
end

section
/-! The power-on state and what the outputs show in it (R130). -/

namespace Sys2Proof.Machine

/-- With no payload `out_csum` reads no cell, so that no free value enters (R97, R98). -/
theorem outCsum_of_payloadLen_zero {s : State} (look : Nat) (h : s.payloadLen = 0#8) : outCsum look s = 0xFF#8 := by
  have hlen : s.payloadLen.toNat = 0 := congrArg BitVec.toNat h
  have hwritten : payloadWritten s 0 = true := rfl
  rw [outCsum, hlen, if_pos hwritten, csum_zero]

/-- The power-on state is the idle state (R26, R130). -/
theorem phase_reset : phase State.reset = .idle :=
  (phase_idle_iff _).2 ⟨rfl, rfl⟩

/-- Settles O39: the registers are those written in `State.reset`, no cell of the empty buffer holds a value, and a payload length
of 0 makes `out_csum` the checksum of no payload at every look. -/
theorem powerOnState : Obligations.PowerOnState :=
  ⟨rfl, rfl, rfl, rfl, rfl, rfl, Memory.read_nil, phase_reset, rfl, rfl, fun look => outCsum_of_payloadLen_zero look rfl⟩

end Sys2Proof.Machine
end

section
/-! The encoder is a right inverse of every form of the decoder, and what a decoded word forgets (30_encoding.md section 3). -/

namespace Sys2Proof

/-- A command assembles to a word that decodes to it (R55). -/
@[simp] theorem decodeWord_encode (i : Instr) : decodeWord (encode i) = i := by
  rw [encode, decodeWord_mkWord, decodeFields_encode]

/-- A command word as a number is decoded as the word (R54). -/
theorem decode_toNat (w : CmdWord) : decode w.toNat = .ok (decodeWord w) := by
  rw [decode, if_pos ((cmdWordFits_iff _).2 w.isLt), BitVec.ofNat_toNat, BitVec.setWidth_eq]

/-- A number with a bit above the 11 wires is refused (R54). -/
theorem decode_of_wide {n : Nat} (h : 2048 ≤ n) : decode n = .error .tooWide := by
  rw [decode, if_neg fun hfits => absurd ((cmdWordFits_iff n).1 hfits) (by omega)]

/-- A table word of 11 bits or more is read as the command word in its low bits (R54). -/
theorem decodeTableWord_toNat {nbits : Nat} (h : 11 ≤ nbits) (w : CmdWord) :
    decodeTableWord nbits w.toNat = some (decodeWord w) := by
  have hlt : w.toNat < 2 ^ nbits := lt_of_lt_of_le w.isLt (Nat.pow_le_pow_right (by decide) h)
  rw [decodeTableWord, tableNumber, Nat.mod_eq_of_lt hlt, decode_toNat]

/-- A decoded word's row is the one its `op` names (R55). -/
@[simp] theorem opcode_decodeFields (op : BitVec 3) (data : Byte) : opcode (decodeFields op data) = op := by
  induction op using op_cases <;> rfl

/-- Decoding forgets the `data` field of every row but `ACCEPT`, and nothing else (R55, R58). -/
theorem decodeWord_eq_iff (v w : CmdWord) :
    decodeWord v = decodeWord w ↔ opField v = opField w ∧ (opField v = 0b001#3 → dataField v = dataField w) := by
  constructor
  · intro h
    have hop : opField v = opField w := by simpa [decodeWord] using congrArg opcode h
    refine ⟨hop, fun hv => ?_⟩
    have hw : opField w = 0b001#3 := hop ▸ hv
    rw [decodeWord, decodeWord, hv, hw] at h
    exact Instr.accept.inj h
  · rintro ⟨hop, hdata⟩
    rw [decodeWord, decodeWord, ← hop]
    by_cases hv : opField v = 0b001#3
    · rw [hdata hv]
    · exact decodeFields_ignores_data hv _ _

/-- Settles O3: the fields of an assembled word are the command's row and operand, and each decoder reads those two fields. -/
theorem decodeEncodeAgree : Obligations.DecodeEncodeAgree := by
  have table {nbits : Nat} (h : 11 ≤ nbits) (i : Instr) : decodeTableWord nbits (encode i).toNat = some i := by
    rw [decodeTableWord_toNat h, decodeWord_encode]
  refine ⟨fun i => ⟨decodeWord_encode i, ?number, table (by decide) i, table (by decide) i⟩, decodeWord_eq_iff,
    fun n => decode_of_wide⟩
  case number => rw [decode_toNat, decodeWord_encode]

/-- Settles O1: the words are closed, and each decodes by its two fields. -/
theorem specWordsDecode : Obligations.SpecWordsDecode := by
  unfold Obligations.SpecWordsDecode
  decide

end Sys2Proof
end

section
/-! What a step samples, and the commands without effect (00_scope.md R10; 42_reset_drain_nop.md R90 to R92). -/

namespace Sys2Proof.Machine

/-- Sampling the first input pending (R10). -/
theorem sample_cons {s : State} {inp : StepInput} {rest : List StepInput} (h : s.pending = inp :: rest) :
    sample s = { s with now := inp.now, pending := rest, stepCount := s.stepCount + 1 } := by
  rw [sample, nextInput_cons h, h, List.tail_cons]

/-- While `rst` is asserted the step is the power-on reset (R92). -/
theorem step_of_rst {s : State} (h : (nextInput s).rst = true) : step s = .next (powerOn (sample s)) := if_pos h

/-- While `rst` is not asserted the step runs the command sampled (R10). -/
theorem step_of_not_rst {s : State} (h : (nextInput s).rst = false) :
    step s = exec (decodeWord (nextInput s).cmd) (sample s) :=
  if_neg (Bool.eq_false_iff.1 h)

/-- A step that samples the input `inp`, which is pending first. -/
theorem step_cons {s : State} {inp : StepInput} {rest : List StepInput} (h : s.pending = inp :: rest)
    (hrst : inp.rst = false) : step s = exec (decodeWord inp.cmd) (sample s) := by
  rw [step_of_not_rst (by rwa [nextInput_cons h]), nextInput_cons h]

/-- Settles O5: the number of a word decodes to what the word decodes to. -/
theorem stepRunsDecodedCommand : Obligations.StepRunsDecodedCommand := by
  intro s inp rest i hpending hrst hdecode
  have hi : decodeWord inp.cmd = i := Except.ok.inj ((decode_toNat inp.cmd).symm.trans hdecode)
  rw [step_cons hpending hrst, hi, sample_cons hpending]

/-- Settles O6: the idle input is the word of `NOP` at the time last sampled. -/
theorem stepWithoutInputIdles : Obligations.StepWithoutInputIdles := by
  intro s hpending
  have hidle : nextInput s = idleInput s := nextInput_nil hpending
  have hnop : decodeWord (nextInput s).cmd = .nop := by rw [hidle, idleInput, decodeWord_encode]
  rw [step_of_not_rst (by rw [hidle, idleInput]), hnop, sample, hidle, hpending]
  rfl

/-- Settles O7: the power-on reset after sampling. -/
theorem resetInputGivesPowerOn : Obligations.ResetInputGivesPowerOn := by
  intro s inp rest hpending hrst
  rw [step_of_rst (by rwa [nextInput_cons hpending]), sample_cons hpending]
  rfl

/-- Settles O24: `NOP` ends the step with its report alone. -/
theorem nopChangesNothing : Obligations.NopChangesNothing := fun _ => rfl

/-- Settles O25: the three reserved meanings are the one that ignores its opcode. -/
theorem reservedOpcodesIgnored : Obligations.ReservedOpcodesIgnored := fun _ => ⟨rfl, rfl, rfl⟩

/-- Settles O32: a byte and its complement add up to all ones. -/
theorem checksumIdentity : Obligations.ChecksumIdentity :=
  ⟨fun s n => BitVec.add_not_self (sumCells s n), fun p => BitVec.add_not_self (sumBytes p)⟩

/-- Settles O35: the two laws of a write. -/
theorem readAfterWrite : Obligations.ReadAfterWrite :=
  fun m i v => ⟨Memory.read_write_same m i v, fun _ h => Memory.read_write_ne m v h⟩

end Sys2Proof.Machine
end

section
/-! Every command keeps the invariant, and under it goes on (10_state.md R25; 44_state_machine.md R106). -/

namespace Sys2Proof.Machine

open Sys2Proof.Safety

/-- A cell that holds a value is read alike wherever it holds that value: no free value enters. -/
theorem readCell_congr {s t : State} {i : Nat} (hheld : (s.buf.read i).isSome = true) (h : t.buf.read i = s.buf.read i) :
    readCell t i = readCell s i := by
  obtain ⟨v, hv⟩ := Option.isSome_iff_exists.1 hheld
  rw [readCell_of_some hv, readCell_of_some (h.trans hv)]

/-- The checksum of payload cells that hold values depends on those values alone. -/
theorem csum_congr_of_held {s t : State} {n : Nat} (hheld : ∀ i, i < n → (s.buf.read (4 + i)).isSome = true)
    (h : ∀ i, i < n → t.buf.read (4 + i) = s.buf.read (4 + i)) : csum t n = csum s n :=
  csum_congr fun i hi => readCell_congr (hheld i hi) (h i hi)

/-- The invariant is one of the block alone: the checksum of I7 reads no free value, by I6. -/
theorem invariant_of_toBlock_eq {s t : State} (hi : Invariant s) (h : t.toBlock = s.toBlock) : Invariant t := by
  obtain ⟨block, surroundings⟩ := t
  change block = s.toBlock at h
  subst h
  refine ⟨hi.mem, hi.i1, hi.i2, hi.i3, hi.i4, hi.i5, hi.i6, fun hc => ?_, hi.i8⟩
  have hcsum := csum_congr_of_held (t := ⟨s.toBlock, surroundings⟩)
    (fun _ h => payload_isSome_of_complete hi hc h) (fun _ _ => rfl)
  exact (hi.i7 hc).trans (congrArg some hcsum.symm)

/-- The reset primitive gives the invariant over any buffer in canonical form. -/
theorem invariant_coreReset {s : State} (h : s.buf.wf) : Invariant (coreReset s) where
  mem := h
  i1 := .inl rfl
  i2 := ⟨fun h => absurd rfl h, fun _ => rfl⟩
  i3 := ⟨by simp, fun _ => by simp, fun h => absurd rfl h⟩
  i4 := nofun
  i5 := fun _ h => absurd rfl h
  i6 := by simp [I6]
  i7 := nofun
  i8 := fun _ => ⟨rfl, rfl, rfl, rfl⟩

/-- Settles O40: the power-on state is cleared already, over the empty buffer. -/
theorem invariantAtReset : Obligations.InvariantAtReset :=
  invariant_coreReset (s := State.reset) Memory.wf_nil

/-- I1 to I3 in one: the total length is unknown in the first three positions, and known from the fourth on, where the cursor does
not pass it. -/
def LengthsAgree (s : State) : Prop :=
  (s.totalLen = 0#4 ∧ s.payloadLen = 0#8 ∧ s.cursor.toNat ≤ 2) ∨
    (s.totalLen.toNat = s.payloadLen.toNat + 5 ∧ 3 ≤ s.cursor.toNat ∧ s.cursor.toNat ≤ s.totalLen.toNat)

theorem lengthsAgree_iff (s : State) : LengthsAgree s ↔ I1 s ∧ I2 s ∧ I3 s := by
  have hfits : s.totalLen.toNat < 16 := s.totalLen.isLt
  rw [LengthsAgree, I1, I2, I3, Config.overhead_eq, Config.maxFrame_eq]
  by_cases h0 : s.totalLen = 0#4
  · constructor
    · rintro (⟨-, hpayload, hle⟩ | ⟨h, -, -⟩)
      · exact ⟨.inl h0, ⟨fun h => absurd h0 h, fun _ => hpayload⟩, by omega, fun _ => hle, fun h => absurd h0 h⟩
      · simp [h0] at h
    · rintro ⟨-, ⟨-, hpayload⟩, -, hle, -⟩
      exact .inl ⟨h0, hpayload h0, hle h0⟩
  · constructor
    · rintro (⟨h, -, -⟩ | ⟨htotal, h3, hle⟩)
      · exact absurd h h0
      · exact ⟨.inr (by omega), ⟨fun _ => htotal, fun h => absurd h h0⟩, by omega, fun h => absurd h h0,
          fun _ => ⟨h3, hle⟩⟩
    · rintro ⟨-, ⟨htotal, -⟩, -, -, hcursor⟩
      exact .inr ⟨htotal h0, hcursor h0⟩

theorem lengthsAgree_of_invariant {s : State} (hi : Invariant s) : LengthsAgree s :=
  (lengthsAgree_iff s).2 ⟨hi.i1, hi.i2, hi.i3⟩

/-- In the first three positions the total length is unknown (I3). -/
theorem totalLen_of_cursor_le {s : State} (hi : Invariant s) (h : s.cursor.toNat ≤ 2) :
    s.totalLen = 0#4 ∧ s.payloadLen = 0#8 := by
  rcases lengthsAgree_of_invariant hi with ⟨h0, hp, -⟩ | ⟨-, h3, -⟩
  · exact ⟨h0, hp⟩
  · omega

/-- From position 3 on, while the frame is in progress, the total length is known and not yet reached (I2, I3, I5). -/
theorem totalLen_of_three_le {s : State} (hi : Invariant s) (hc : s.complete = false) (h : 3 ≤ s.cursor.toNat) :
    s.totalLen.toNat = s.payloadLen.toNat + 5 ∧ s.cursor.toNat < s.totalLen.toNat := by
  rcases lengthsAgree_of_invariant hi with ⟨-, -, hle⟩ | ⟨htotal, -, -⟩
  · omega
  · exact ⟨htotal, hi.i5 hc fun h0 => by simp [h0] at htotal⟩

/-- While a frame is not complete the cell at `cursor` exists (R39). -/
theorem cursor_lt_of_not_complete {s : State} (hi : Invariant s) (hc : s.complete = false) : s.cursor.toNat < 15 := by
  have hfits : s.totalLen.toNat < 16 := s.totalLen.isLt
  by_cases h : s.cursor.toNat ≤ 2
  · omega
  · have hlast := totalLen_of_three_le hi hc (by omega)
    omega

/-- What the invariant says of a frame begun, its completion aside: this is what a stored byte gives, before the completion check
closes or discards a frame it has filled. -/
structure Accumulated (s : State) : Prop where
  mem : s.buf.wf
  lengths : LengthsAgree s
  cells : I6 s
  started : 0 < s.cursor.toNat

/-- A cell after an `ACCEPT` that stores. -/
theorem stored_read (data : Byte) (s : State) (a : Nat) :
    (stored data (armState data s)).buf.read a = if a = s.cursor.toNat then some data else s.buf.read a := by
  rw [stored_buf, armState_buf, armState_cursor, Memory.read_write]

/-- The cursor after an `ACCEPT` that stores, where the cell exists. -/
theorem stored_armState_cursor_toNat {data : Byte} {s : State} (hlt : s.cursor.toNat < 15) :
    (stored data (armState data s)).cursor.toNat = s.cursor.toNat + 1 := by
  rw [stored_cursor_toNat (by rwa [armState_cursor]), armState_cursor]

/-- The lengths after an `ACCEPT` that stores: set by the length byte, kept by every other. -/
theorem lengthsAgree_stored {data : Byte} {s : State} (hi : Invariant s) (hc : s.complete = false)
    (hlength : s.cursor.toNat = 2 → exceedsCapacity data = false) : LengthsAgree (stored data (armState data s)) := by
  have hcursor := stored_armState_cursor_toNat (data := data) (cursor_lt_of_not_complete hi hc)
  obtain ⟨-, -, -, -, -, -, -, hkeeps, hsets, -, -⟩ := armState_spec data s
  rw [LengthsAgree, hcursor, stored_totalLen, stored_payloadLen]
  by_cases h2 : s.cursor.toNat = 2
  · have hle := (exceedsCapacity_false_iff data).1 (hlength h2)
    rw [(hsets h2).1, (hsets h2).2, BitVec.toNat_ofNat]
    exact .inr (by omega)
  · rw [(hkeeps h2).1, (hkeeps h2).2]
    rcases Nat.lt_or_gt_of_ne h2 with hless | hmore
    · obtain ⟨htotal, hpayload⟩ := totalLen_of_cursor_le hi (by omega)
      exact .inl ⟨htotal, hpayload, by omega⟩
    · obtain ⟨htotal, hlast⟩ := totalLen_of_three_le hi hc hmore
      exact .inr (by omega)

/-- The cells after an `ACCEPT` that stores: the new one, at the old `cursor`, holds what I6 says of it, and the others are as
before. -/
theorem i6_stored {data : Byte} {s : State} (hi : Invariant s) (hc : s.complete = false)
    (hframing : s.cursor.toNat < 2 → isSentinel data = true) : I6 (stored data (armState data s)) := by
  have hcursor := stored_armState_cursor_toNat (data := data) (cursor_lt_of_not_complete hi hc)
  obtain ⟨-, -, -, -, -, -, -, hkeepsLen, hsetsLen, hkeepsDest, hsetsDest⟩ := armState_spec data s
  obtain ⟨hcells, hfirst, hsecond, hlen, hdest⟩ := hi.i6
  rw [I6, hcursor]
  simp only [stored_read, stored_payloadLen, stored_dest]
  refine ⟨fun k hk => ?cells, fun _ => ?first, fun h1 => ?second, fun h2 => ?len, fun h3 => ?dest⟩
  case cells =>
    split
    · rfl
    · exact hcells k (by omega)
  case first =>
    split
    · exact congrArg some ((isSentinel_iff data).1 (hframing (by omega)))
    · exact hfirst (by omega)
  case second =>
    split
    · exact congrArg some ((isSentinel_iff data).1 (hframing (by omega)))
    · exact hsecond (by omega)
  case len =>
    split
    · rw [(hsetsLen (by omega)).2]
    · rw [(hkeepsLen (by omega)).2]
      exact hlen (by omega)
  case dest =>
    split
    · rw [hsetsDest (by omega)]
      exact ⟨rfl, rfl⟩
    · rw [hkeepsDest (by omega)]
      exact hdest (by omega)

/-- What an `ACCEPT` that stores hands to the completion check. -/
theorem accumulated_stored {data : Byte} {s : State} (hi : Invariant s) (hc : s.complete = false)
    (hframing : s.cursor.toNat < 2 → isSentinel data = true)
    (hlength : s.cursor.toNat = 2 → exceedsCapacity data = false) : Accumulated (stored data (armState data s)) where
  mem := by
    rw [stored_buf, armState_buf, armState_cursor]
    exact Memory.wf_write data hi.mem (cursor_lt_of_not_complete hi hc)
  lengths := lengthsAgree_stored hi hc hlength
  cells := i6_stored hi hc hframing
  started := by
    rw [stored_armState_cursor_toNat (cursor_lt_of_not_complete hi hc)]
    exact Nat.succ_pos _

/-- A filled frame's cells are the `payload_len + OVERHEAD` below `cursor`, and its trailer the last of them. -/
theorem Accumulated.of_filled {s : State} (ha : Accumulated s) (hf : frameFilled s = true) :
    s.cursor.toNat = s.payloadLen.toNat + 5 ∧ trailerIndex s + 1 = s.cursor.toNat := by
  obtain ⟨h0, hcursor⟩ := (frameFilled_iff s).1 hf
  have htrailer : trailerIndex s = 4 + s.payloadLen.toNat := rfl
  rcases ha.lengths with ⟨h, -, -⟩ | ⟨htotal, -, -⟩
  · exact absurd h h0
  · rw [hcursor]
    omega

/-- A filled frame's trailer cell exists (R39). -/
theorem Accumulated.trailerIndex_lt {s : State} (ha : Accumulated s) (hf : frameFilled s = true) : trailerIndex s < 15 := by
  have hfits : s.cursor.toNat < 16 := s.cursor.isLt
  have htrailer := (ha.of_filled hf).2
  omega

/-- A frame not filled meets the invariant as it stands. -/
theorem Accumulated.invariant_of_unfilled {s : State} (ha : Accumulated s) (hc : s.complete = false)
    (hf : frameFilled s = false) : Invariant s := by
  obtain ⟨hi1, hi2, hi3⟩ := (lengthsAgree_iff s).1 ha.lengths
  have hnot : ∀ {P : Prop}, s.complete = true → P := fun h => absurd (hc.symm.trans h) (by decide)
  refine ⟨ha.mem, hi1, hi2, hi3, hnot, fun _ h0 => ?reached, ha.cells, hnot, fun h0 => ?started⟩
  case reached =>
    refine Nat.lt_of_le_of_ne (hi3.2.2 h0).2 fun hcursor => Bool.eq_false_iff.1 hf ?_
    exact (frameFilled_iff s).2 ⟨h0, BitVec.eq_of_toNat_eq hcursor⟩
  case started =>
    have hpos := ha.started
    simp [h0] at hpos

/-- A filled frame whose trailer is its checksum meets the invariant once it is marked complete. -/
theorem Accumulated.invariant_markComplete {s : State} (ha : Accumulated s) (hf : frameFilled s = true)
    (hm : checksumMatches s = true) : Invariant (markComplete s) := by
  obtain ⟨hi1, hi2, hi3⟩ := (lengthsAgree_iff s).1 ha.lengths
  obtain ⟨h0, hcursor⟩ := (frameFilled_iff s).1 hf
  refine ⟨ha.mem, hi1, hi2, hi3, fun _ => ⟨h0, hcursor, rfl⟩, nofun, ha.cells, fun _ => ?trailer, fun hz => ?started⟩
  case trailer =>
    have htrailer := (ha.of_filled hf).2
    obtain ⟨v, hv⟩ := Option.isSome_iff_exists.1 (ha.cells.1 (trailerIndex s) (by omega))
    have hcsum : csum (markComplete s) s.payloadLen.toNat = csum s s.payloadLen.toNat := csum_congr fun _ _ => rfl
    calc
      s.buf.read (trailerIndex s) = some v := hv
      _ = some (csum s s.payloadLen.toNat) := congrArg some ((checksumMatches_iff_of_trailer hv).1 hm).symm
      _ = some (csum (markComplete s) s.payloadLen.toNat) := congrArg some hcsum.symm
  case started =>
    have hpos := ha.started
    rw [← markComplete_cursor, hz] at hpos
    exact absurd hpos (by decide)

/-- The completion check closes, discards or leaves the frame, and each gives the invariant back. -/
theorem Accumulated.invariant_of_completionCheck {s t : State} (ha : Accumulated s) (hc : s.complete = false)
    (h : completionCheck s = .next t) : Invariant t := by
  rcases completionCheck_cases h with ⟨hf, rfl⟩ | ⟨hf, -, hm, rfl⟩ | ⟨-, -, -, rfl⟩
  · exact invariant_of_toBlock_eq (ha.invariant_of_unfilled hc hf) rfl
  · exact invariant_of_toBlock_eq (ha.invariant_markComplete hf hm) rfl
  · exact invariant_of_toBlock_eq (invariant_coreReset ha.mem) rfl

/-- Every command keeps the invariant (R25). -/
theorem exec_keeps_invariant {i : Instr} {s t : State} (hi : Invariant s) (h : exec i s = .next t) : Invariant t := by
  have hkept {e : Event} {r : Option Frame} : Invariant (finish e r s) := invariant_of_toBlock_eq hi rfl
  have hcleared {e : Event} {r : Option Frame} : Invariant (finish e r (coreReset s)) :=
    invariant_of_toBlock_eq (invariant_coreReset hi.mem) rfl
  cases i with
  | accept data =>
    rcases execAccept_cases h with ⟨-, rfl⟩ | ⟨-, -, -, rfl⟩ | ⟨-, -, -, rfl⟩ | ⟨hc, -, hframing, hlength, hcheck⟩
    · exact hkept
    · exact hcleared
    · exact hcleared
    · exact (accumulated_stored hi hc hframing hlength).invariant_of_completionCheck (by simpa using hc)
        hcheck
  | poll =>
    rcases execPoll_cases h with ⟨-, rfl⟩ | ⟨-, rfl⟩
    · exact hcleared
    · exact hkept
  | drain =>
    rcases execDrain_cases h with ⟨-, -, rfl⟩ | ⟨-, rfl⟩
    · exact hcleared
    · exact hkept
  | reset => cases h; exact hcleared
  | nop | reserved101 | reserved110 | reserved111 => cases h; exact hkept

/-- Sampling touches nothing the invariant speaks of. -/
theorem invariant_sample {s : State} (hi : Invariant s) : Invariant (sample s) := invariant_of_toBlock_eq hi rfl

/-- Settles O41: `rst` gives the power-on state, and any other step a command's next state. -/
theorem stepKeepsInvariant : Obligations.StepKeepsInvariant := by
  intro s t hi h
  cases hrst : (nextInput s).rst with
  | true =>
    rw [step_of_rst hrst] at h
    cases h
    exact invariant_of_toBlock_eq invariantAtReset rfl
  | false =>
    rw [step_of_not_rst hrst] at h
    exact exec_keeps_invariant (invariant_sample hi) h

/-- The completion check goes on where a filled frame's trailer cell exists. -/
theorem exists_completionCheck {s : State} (h : frameFilled s = true → trailerIndex s < 15) :
    ∃ t, completionCheck s = .next t := by
  cases hf : frameFilled s with
  | false => exact ⟨_, completionCheck_of_not_filled hf⟩
  | true =>
    rw [completionCheck_of_filled hf (h hf)]
    split <;> exact ⟨_, rfl⟩

/-- Where an `ACCEPT` finds the block: holding a complete frame; at a header position that rejects the byte; at a cell that takes
it; at no cell at all. -/
theorem accept_cases (data : Byte) (s : State) :
    s.complete = true ∨
      (s.complete = false ∧ s.cursor.toNat < 2 ∧ data ≠ 0xAA#8) ∨
      (s.complete = false ∧ s.cursor.toNat = 2 ∧ 15 < data.toNat + 5) ∨
      (s.complete = false ∧ s.cursor.toNat < 15 ∧ (s.cursor.toNat < 2 → isSentinel data = true) ∧
        (s.cursor.toNat = 2 → exceedsCapacity data = false)) ∨
      (s.complete = false ∧ 15 ≤ s.cursor.toNat) := by
  rw [isSentinel_iff, exceedsCapacity_false_iff]
  cases s.complete with
  | true => exact .inl rfl
  | false =>
    by_cases habsent : 15 ≤ s.cursor.toNat
    · exact .inr (.inr (.inr (.inr ⟨rfl, habsent⟩)))
    by_cases hframing : s.cursor.toNat < 2 ∧ data ≠ 0xAA#8
    · exact .inr (.inl ⟨rfl, hframing⟩)
    by_cases hlength : s.cursor.toNat = 2 ∧ 15 < data.toNat + 5
    · exact .inr (.inr (.inl ⟨rfl, hlength⟩))
    · exact .inr (.inr (.inr (.inl ⟨rfl, by omega, fun h => of_not_not fun hd => hframing ⟨h, hd⟩, by omega⟩)))

/-- At a position past the last cell `ACCEPT` stops (log entry 7). -/
theorem execAccept_of_absent {data : Byte} {s : State} (hc : s.complete = false) (h : 15 ≤ s.cursor.toNat) :
    execAccept data s = .fault (.bufferIndex s.cursor.toNat) := by
  have habsent : ¬ inBuf (storeIndex (stampTime s)) = true := fun hin => absurd ((inBuf_iff _).1 hin) (Nat.not_lt.2 h)
  rw [execAccept, if_neg (by simp [hc]), acceptArm, if_neg (by rw [stampTime_cursor]; omega),
    if_neg (by rw [stampTime_cursor]; omega), if_neg (by rw [stampTime_cursor]; omega), acceptBody, storeByte, if_neg habsent]
  rfl

/-- Under the invariant every command goes on (R106). -/
theorem exec_goes_on {s : State} (hi : Invariant s) (i : Instr) : ∃ t, exec i s = .next t := by
  cases i with
  | accept data =>
    rcases accept_cases data s with hc | ⟨hc, h2, hd⟩ | ⟨hc, h2, hd⟩ | ⟨hc, hlt, hframing, hlength⟩ | ⟨hc, h⟩
    · exact ⟨_, execAccept_of_complete hc⟩
    · exact ⟨_, execAccept_of_bad_framing hc h2 hd⟩
    · exact ⟨_, execAccept_of_excess_length hc h2 hd⟩
    · rw [exec, execAccept_of_stores hc hlt hframing hlength]
      exact exists_completionCheck (accumulated_stored hi hc hframing hlength).trailerIndex_lt
    · exact absurd (cursor_lt_of_not_complete hi hc) (Nat.not_lt.2 h)
  | poll =>
    rw [exec, execPoll]
    split <;> exact ⟨_, rfl⟩
  | drain =>
    cases hc : s.complete with
    | false => exact ⟨_, execDrain_of_not_complete hc⟩
    | true =>
      have hle := payloadLen_le_of_complete hi hc
      exact ⟨_, execDrain_of_complete hc ((payloadInBuf_iff s).2 (by omega))⟩
  | nop | reset | reserved101 | reserved110 | reserved111 => exact ⟨_, rfl⟩

/-- Settles O42: `rst` and every command go on. -/
theorem stepAlwaysGoesOn : Obligations.StepAlwaysGoesOn := by
  intro s hi
  cases hrst : (nextInput s).rst with
  | true => exact ⟨_, step_of_rst hrst⟩
  | false =>
    rw [step_of_not_rst hrst]
    exact exec_goes_on (invariant_sample hi) _

/-- The outcome goes on, or names a cell that `BUF` does not have. -/
def GoesOnOrNamesAbsentCell (o : Result) : Prop := (∃ t, o = .next t) ∨ ∃ n, 15 ≤ n ∧ o = .fault (.bufferIndex n)

theorem completionCheck_goesOnOrNamesAbsentCell (s : State) : GoesOnOrNamesAbsentCell (completionCheck s) := by
  by_cases h : frameFilled s = true → trailerIndex s < 15
  · exact .inl (exists_completionCheck h)
  · obtain ⟨hf, hge⟩ := Classical.not_imp.1 h
    refine .inr ⟨trailerIndex s, Nat.not_lt.1 hge, ?_⟩
    rw [completionCheck, if_pos hf, if_neg fun hin => hge ((inBuf_iff _).1 hin)]

theorem execAccept_goesOnOrNamesAbsentCell (data : Byte) (s : State) : GoesOnOrNamesAbsentCell (execAccept data s) := by
  rcases accept_cases data s with hc | ⟨hc, h2, hd⟩ | ⟨hc, h2, hd⟩ | ⟨hc, hlt, hframing, hlength⟩ | ⟨hc, h⟩
  · exact .inl ⟨_, execAccept_of_complete hc⟩
  · exact .inl ⟨_, execAccept_of_bad_framing hc h2 hd⟩
  · exact .inl ⟨_, execAccept_of_excess_length hc h2 hd⟩
  · rw [execAccept_of_stores hc hlt hframing hlength]
    exact completionCheck_goesOnOrNamesAbsentCell _
  · exact .inr ⟨_, h, execAccept_of_absent hc h⟩

/-- `DRAIN` names `MAX_FRAME`, the first index past the buffer. -/
theorem execDrain_goesOnOrNamesAbsentCell (s : State) : GoesOnOrNamesAbsentCell (execDrain s) := by
  rw [execDrain]
  split
  · split
    · exact .inl ⟨_, rfl⟩
    · exact .inr ⟨15, Nat.le_refl 15, rfl⟩
  · exact .inl ⟨_, rfl⟩

/-- Only `ACCEPT` and `DRAIN` can stop. -/
theorem exec_goesOnOrNamesAbsentCell (i : Instr) (s : State) :
    GoesOnOrNamesAbsentCell (exec i s) ∧ ((∃ t, exec i s = .next t) ∨ i = .drain ∨ ∃ data, i = .accept data) := by
  cases i with
  | accept data => exact ⟨execAccept_goesOnOrNamesAbsentCell data s, .inr (.inr ⟨data, rfl⟩)⟩
  | drain => exact ⟨execDrain_goesOnOrNamesAbsentCell s, .inr (.inl rfl)⟩
  | poll =>
    have hnext : ∃ t, execPoll s = .next t := by
      rw [execPoll]
      split <;> exact ⟨_, rfl⟩
    exact ⟨.inl hnext, .inl hnext⟩
  | nop | reset | reserved101 | reserved110 | reserved111 => exact ⟨.inl ⟨_, rfl⟩, .inl ⟨_, rfl⟩⟩

/-- Settles O43: an outcome that is not a next state is the fault of an absent cell, which the invariant excludes. -/
theorem onlyAbsentCellsStop : Obligations.OnlyAbsentCellsStop := by
  intro i s
  obtain ⟨hgoes, hwhich⟩ := exec_goesOnOrNamesAbsentCell i s
  refine ⟨fun r hr => ?refused, fun r hr => ⟨?cell, fun hi => ?invariant, ?which⟩⟩
  case refused => rcases hgoes with ⟨t, ht⟩ | ⟨n, -, hn⟩ <;> simp_all
  case cell =>
    rcases hgoes with ⟨t, ht⟩ | ⟨n, hle, hn⟩
    · simp [ht] at hr
    · exact ⟨n, hle, Host.Outcome.fault.inj (hr.symm.trans hn)⟩
  case invariant =>
    obtain ⟨t, ht⟩ := exec_goes_on hi i
    simp [ht] at hr
  case which =>
    rcases hwhich with ⟨t, ht⟩ | hwhich
    · simp [ht] at hr
    · exact hwhich

end Sys2Proof.Machine
end

section
/-! What a command leaves unchanged (20_memory.md R37; 30_encoding.md R56; 40_accept.md R77; 42_reset_drain_nop.md R86). -/

namespace Sys2Proof.Machine

open Sys2Proof.Safety

/-- What a command other than `ACCEPT` that goes on can do: nothing, or run the reset primitive. -/
theorem exec_other_cases {i : Instr} {s t : State} (hne : ∀ data, i ≠ .accept data) (h : exec i s = .next t) :
    (i ≠ .reset ∧ (i = .drain → s.complete = false) ∧ t = finish .noEvent none s) ∨
      ((i = .reset ∨ (i = .poll ∧ s.complete = false) ∨ (i = .drain ∧ s.complete = true)) ∧
        ∃ e r, t = finish e r (coreReset s)) := by
  cases i with
  | accept data => exact absurd rfl (hne data)
  | poll =>
    rcases execPoll_cases h with ⟨hfires, rfl⟩ | ⟨-, rfl⟩
    · exact .inr ⟨.inr (.inl ⟨rfl, ((watchdogFires_iff s).1 hfires).1⟩), _, _, rfl⟩
    · exact .inl ⟨nofun, nofun, rfl⟩
  | drain =>
    rcases execDrain_cases h with ⟨hc, -, rfl⟩ | ⟨hc, rfl⟩
    · exact .inr ⟨.inr (.inr ⟨rfl, hc⟩), _, _, rfl⟩
    · exact .inl ⟨nofun, fun _ => hc, rfl⟩
  | reset => cases h; exact .inr ⟨.inl rfl, _, _, rfl⟩
  | nop | reserved101 | reserved110 | reserved111 => cases h; exact .inl ⟨nofun, nofun, rfl⟩

/-- The completion check writes no cell and leaves the lengths of a frame it keeps. -/
theorem completionCheck_frame {s t : State} (h : completionCheck s = .next t) :
    t.buf = s.buf ∧ t.dest = s.dest ∧
      ((t.totalLen = s.totalLen ∧ t.payloadLen = s.payloadLen) ∨
        (t.cursor = 0#4 ∧ t.totalLen = 0#4 ∧ t.payloadLen = 0#8)) ∧
      t.now = s.now ∧ t.pending = s.pending ∧ t.stepCount = s.stepCount ∧ t.result = none := by
  rcases completionCheck_cases h with ⟨-, rfl⟩ | ⟨-, -, -, rfl⟩ | ⟨-, -, -, rfl⟩
  · exact ⟨rfl, rfl, .inl ⟨rfl, rfl⟩, rfl, rfl, rfl, rfl⟩
  · exact ⟨rfl, rfl, .inl ⟨rfl, rfl⟩, rfl, rfl, rfl, rfl⟩
  · exact ⟨rfl, rfl, .inr ⟨rfl, rfl, rfl⟩, rfl, rfl, rfl, rfl⟩

/-- Settles O15: the time is stamped over whatever `ts` held, before any arm. -/
theorem acceptIgnoresElapsedTime : Obligations.AcceptIgnoresElapsedTime := by
  intro data s x hc
  have hc' : ¬ s.complete = true := Bool.eq_false_iff.1 hc
  rw [exec, exec, execAccept, execAccept, if_neg hc', if_neg hc']
  rfl

/-- Settles O16: a dropped byte changes the report alone, a rejected one the registers of `raise`, and a stored one its cell and
what its arm sets. -/
theorem acceptFrame : Obligations.AcceptFrame := by
  intro data s t h
  rcases execAccept_cases h with ⟨-, rfl⟩ | ⟨hc, -, -, rfl⟩ | ⟨hc, -, -, rfl⟩ | ⟨hc, -, hframing, hlength, hcheck⟩
  · exact ⟨fun _ _ => rfl, fun _ _ => rfl, fun _ => rfl, fun _ => ⟨rfl, rfl, rfl, rfl, rfl⟩, fun _ => .inl ⟨rfl, rfl⟩,
      rfl, rfl, rfl, rfl⟩
  · exact ⟨fun _ _ => rfl, fun _ _ => rfl, fun _ => rfl, by simp [hc], fun _ => .inr ⟨rfl, rfl, rfl⟩, rfl, rfl, rfl, rfl⟩
  · exact ⟨fun _ _ => rfl, fun _ _ => rfl, fun _ => rfl, by simp [hc], fun _ => .inr ⟨rfl, rfl, rfl⟩, rfl, rfl, rfl, rfl⟩
  · obtain ⟨hbuf, hdest, hlengths, hnow, hpending, hcount, hresult⟩ := completionCheck_frame hcheck
    obtain ⟨-, -, -, -, -, -, -, hkeepsLen, -, hkeepsDest, -⟩ := armState_spec data s
    rw [isSentinel_iff] at hframing
    rw [exceedsCapacity_false_iff] at hlength
    refine ⟨fun a ha => ?cell, fun hkept => ?rejected, fun hkept => ?dest, by simp [hc], fun h2 => ?lengths,
      ?_, ?_, ?_, hresult⟩
    case cell => exact hbuf ▸ (stored_read data s a).trans (if_neg ha)
    case rejected =>
      rcases hkept with hc' | ⟨h2, hd⟩ | ⟨h2, hd⟩
      · simp [hc] at hc'
      · exact absurd (hframing h2) hd
      · exact absurd hd (Nat.not_lt.2 (hlength h2))
    case dest =>
      rcases hkept with hc' | h3
      · simp [hc] at hc'
      · rw [hdest, stored_dest, hkeepsDest fun h => h3 (BitVec.eq_of_toNat_eq h)]
    case lengths =>
      obtain ⟨htotal, hpayload⟩ := hkeepsLen fun h => h2 (BitVec.eq_of_toNat_eq h)
      rwa [stored_totalLen, stored_payloadLen, htotal, hpayload] at hlengths
    · rw [hnow, stored_now, armState_now]
    · rw [hpending, stored_pending, armState_pending]
    · rw [hcount, stored_stepCount, armState_stepCount]

/-- Settles O26: every other command does nothing or runs the reset primitive, which leaves `BUF` and `dest`. -/
theorem otherCommandsFrame : Obligations.OtherCommandsFrame := by
  intro i s t hne h
  rcases exec_other_cases hne h with ⟨hreset, -, rfl⟩ | ⟨hwhich, e, r, rfl⟩
  · exact ⟨fun _ => rfl, rfl, rfl, rfl, rfl, .inl ⟨rfl, rfl, rfl, rfl, rfl, hreset⟩⟩
  · exact ⟨fun _ => rfl, rfl, rfl, rfl, rfl,
      .inr ⟨rfl, rfl, rfl, rfl, rfl, hwhich.imp_right (Or.imp And.left And.left)⟩⟩

/-- No command touches the inputs to come. -/
theorem exec_pending {i : Instr} {s t : State} (h : exec i s = .next t) : t.pending = s.pending := by
  by_cases haccept : ∃ data, i = .accept data
  · obtain ⟨data, rfl⟩ := haccept
    exact (execAccept_pending_ts h).1
  · obtain ⟨-, -, -, hpending, -⟩ := otherCommandsFrame i s t (not_exists.1 haccept) h
    exact hpending

/-- What `DRAIN` answers is chosen by the block alone, so that a change `f` around the block is seen in the next state alone. -/
theorem execDrain_map {f g : State → State} {s : State} (hblock : (f s).toBlock = s.toBlock)
    (hdrained : finish .noEvent (some (drainFrame (f s))) (coreReset (f s)) =
      g (finish .noEvent (some (drainFrame s)) (coreReset s)))
    (hkept : finish .noEvent none (f s) = g (finish .noEvent none s)) :
    execDrain (f s) = andThen (execDrain s) (fun t => .next (g t)) := by
  have hcomplete : (f s).complete = s.complete := congrArg Block.complete hblock
  have hpayload : payloadInBuf (f s) = payloadInBuf s := by rw [payloadInBuf, hblock, payloadInBuf]
  rw [execDrain, execDrain, hcomplete, hpayload, hdrained, hkept]
  split
  · split <;> rfl
  · rfl

/-- Settles O27: no test of these commands and no value they deliver is one of the time. -/
theorem onlyAcceptAndPollReadTime : Obligations.OnlyAcceptAndPollReadTime := by
  intro i s x h
  cases i with
  | accept | poll => cases h
  | drain => exact execDrain_map (f := fun s => { s with now := x }) (g := fun t => { t with now := x }) rfl rfl rfl
  | nop | reset | reserved101 | reserved110 | reserved111 => rfl

end Sys2Proof.Machine
end

section
/-! What stands around the block bears on nothing that it does (10_state.md R13, R27; 60_exceptions.md R112). -/

namespace Sys2Proof.Machine

/-- The state with other inputs to come. -/
def withPending (p : List StepInput) (s : State) : State := { s with pending := p }

/-- The state in other surroundings: other inputs to come and another report, at the same time and step. -/
def resurround (p : List StepInput) (e : Event) (r : Option Frame) (s : State) : State := finish e r (withPending p s)

section
variable (p : List StepInput) (e : Event) (r : Option Frame) (s : State)

/-- Every command ends by reporting, over any report of an earlier step. -/
theorem finish_resurround (e' : Event) (r' : Option Frame) :
    finish e' r' (resurround p e r s) = withPending p (finish e' r' s) := rfl

theorem raise_resurround (e' : Event) : raise e' (resurround p e r s) = withPending p (raise e' s) := rfl

/-- The completion check reads the block and the free values alone. -/
theorem completionCheck_resurround :
    completionCheck (resurround p e r s) = andThen (completionCheck s) (fun t => .next (withPending p t)) := by
  have hmatches : checksumMatches (resurround p e r s) = checksumMatches s := by
    have hcsum : csum (resurround p e r s) s.payloadLen.toNat = csum s s.payloadLen.toNat := csum_congr fun _ _ => rfl
    exact congrArg (· == readCell s (trailerIndex s)) hcsum
  have hfilled : frameFilled (resurround p e r s) = frameFilled s := rfl
  have htrailer : trailerIndex (resurround p e r s) = trailerIndex s := rfl
  rw [completionCheck, completionCheck, hmatches, hfilled, htrailer]
  split
  · split
    · split <;> rfl
    · rfl
  · rfl

theorem stored_armState_resurround (data : Byte) :
    stored data (armState data (resurround p e r s)) = resurround p e r (stored data (armState data s)) := by
  have hcursor : (resurround p e r s).cursor = s.cursor := rfl
  rw [armState, armState, hcursor]
  split
  · rfl
  · split <;> rfl

/-- A command in other surroundings does the same, and leaves them but for its own report. -/
theorem exec_resurround (i : Instr) :
    exec i (resurround p e r s) = andThen (exec i s) (fun t => .next (withPending p t)) := by
  cases i with
  | accept data =>
    rw [exec, exec]
    rcases accept_cases data s with hc | ⟨hc, h2, hd⟩ | ⟨hc, h2, hd⟩ | ⟨hc, hlt, hframing, hlength⟩ | ⟨hc, h⟩
    · rw [execAccept_of_complete hc, execAccept_of_complete (s := resurround p e r s) hc]
      rfl
    · rw [execAccept_of_bad_framing hc h2 hd, execAccept_of_bad_framing (s := resurround p e r s) hc h2 hd]
      rfl
    · rw [execAccept_of_excess_length hc h2 hd, execAccept_of_excess_length (s := resurround p e r s) hc h2 hd]
      rfl
    · rw [execAccept_of_stores hc hlt hframing hlength,
        execAccept_of_stores (s := resurround p e r s) hc hlt hframing hlength, stored_armState_resurround,
        completionCheck_resurround]
    · rw [execAccept_of_absent hc h, execAccept_of_absent (s := resurround p e r s) hc h]
      rfl
  | poll =>
    have hfires : watchdogFires (resurround p e r s) = watchdogFires s := rfl
    rw [exec, exec, execPoll, execPoll, hfires]
    split <;> rfl
  | drain => exact execDrain_map (f := resurround p e r) (g := withPending p) rfl rfl rfl
  | nop | reset | reserved101 | reserved110 | reserved111 => rfl

/-- With the same inputs to come the outcome is the same as it stands. -/
theorem exec_finish (i : Instr) : exec i (finish e r s) = exec i s := by
  have hkept := exec_resurround s.pending e r s i
  cases h : exec i s with
  | next t =>
    have hpending : withPending s.pending t = t := by
      rw [← exec_pending h]
      rfl
    rw [h] at hkept
    exact hkept.trans (congrArg Host.Outcome.next hpending)
  | fault | refused =>
    rw [h] at hkept
    exact hkept

end

/-- Settles O30: neither sampling nor `rst` reads the report, and no command does. -/
theorem reportIsNotRead : Obligations.ReportIsNotRead := by
  intro s e r
  change step (finish e r s) = step s
  have hinput : nextInput (finish e r s) = nextInput s := rfl
  cases hrst : (nextInput s).rst with
  | true =>
    rw [step_of_rst hrst, step_of_rst (by rwa [hinput])]
    rfl
  | false =>
    rw [step_of_not_rst hrst, step_of_not_rst (by rwa [hinput]), hinput]
    exact exec_finish e r (sample s) _

/-- Two states with the same block, input and step counter are sampled to one state in two surroundings. -/
theorem sample_eq_resurround {s t : State} (hblock : s.toBlock = t.toBlock) (hinput : nextInput s = nextInput t)
    (hcount : s.stepCount = t.stepCount) : sample t = resurround t.pending.tail t.event t.result (sample s) := by
  rw [sample, sample, ← hinput, ← hblock, ← hcount]
  rfl

/-- Settles O55: the two states are sampled to one state in two surroundings, which a command does not tell apart. -/
theorem blockIsTheWholeState : Obligations.BlockIsTheWholeState := by
  intro s t hblock hinput hcount
  cases hrst : (nextInput s).rst with
  | true =>
    rw [step_of_rst hrst, step_of_rst (hinput ▸ hrst)]
    refine ⟨fun s' h => ?_, nofun⟩
    cases h
    exact ⟨_, rfl, rfl, rfl, rfl⟩
  | false =>
    rw [step_of_not_rst hrst, step_of_not_rst (hinput ▸ hrst), ← hinput, sample_eq_resurround hblock hinput hcount,
      exec_resurround]
    refine ⟨fun s' h => ?_, fun r h => ?_⟩
    · rw [h]
      exact ⟨_, rfl, rfl, rfl, rfl⟩
    · rw [h]
      rfl

end Sys2Proof.Machine
end

section
/-! How the registers move: the cursor, `complete` and `ts` across a command (44_state_machine.md R105, R107; 10_state.md R19,
I9). -/

namespace Sys2Proof.Machine

open Sys2Proof.Safety

/-- The cursor after an `ACCEPT`: kept with the byte dropped, one further with the byte kept, 0 with the frame discarded. -/
theorem execAccept_cursor {data : Byte} {s t : State} (h : execAccept data s = .next t) :
    (t.event = .backpressureDrop ∧ s.complete = true ∧ t.cursor = s.cursor) ∨
      (t.event.resets = true ∧ t.cursor = 0#4) ∨
      (t.event = .noEvent ∨ t.event = .frameComplete) ∧ t.cursor.toNat = s.cursor.toNat + 1 := by
  rcases execAccept_cases h with ⟨hc, rfl⟩ | ⟨-, -, -, rfl⟩ | ⟨-, -, -, rfl⟩ | ⟨-, hlt, -, -, hcheck⟩
  · exact .inl ⟨rfl, hc, rfl⟩
  · exact .inr (.inl ⟨rfl, rfl⟩)
  · exact .inr (.inl ⟨rfl, rfl⟩)
  · rcases completionCheck_cases hcheck with ⟨-, rfl⟩ | ⟨-, -, -, rfl⟩ | ⟨-, -, -, rfl⟩
    · exact .inr (.inr ⟨.inl rfl, stored_armState_cursor_toNat hlt⟩)
    · exact .inr (.inr ⟨.inr rfl, stored_armState_cursor_toNat hlt⟩)
    · exact .inr (.inl ⟨rfl, rfl⟩)

/-- Settles O45: an `ACCEPT` moves the cursor as its label says, and another command leaves or clears it. -/
theorem cursorAdvance : Obligations.CursorAdvance := by
  intro i s t h
  by_cases haccept : ∃ data, i = .accept data
  · obtain ⟨data, rfl⟩ := haccept
    rcases execAccept_cursor h with ⟨he, hc, hcursor⟩ | ⟨hr, hcursor⟩ | ⟨he, hcursor⟩
    · exact ⟨by simp [he], by simp [he, Event.resets], .inl hcursor⟩
    · exact ⟨fun he => by rcases he with ⟨he, -⟩ | he <;> simp [he, Event.resets] at hr, fun _ => hcursor,
        .inr (.inl hcursor)⟩
    · exact ⟨fun _ _ => hcursor, by rcases he with he | he <;> simp [he, Event.resets], .inr (.inr ⟨hcursor, data, rfl⟩)⟩
  · rcases exec_other_cases (not_exists.1 haccept) h with ⟨hreset, hdrain, rfl⟩ | ⟨-, e, r, rfl⟩
    · refine ⟨fun _ ha => absurd ha haccept, fun hclears => ?_, .inl rfl⟩
      rcases hclears with hr | hi | ⟨hi, hc⟩
      · cases hr
      · exact absurd hi hreset
      · exact absurd ((hdrain hi).symm.trans hc) (by decide)
    · exact ⟨fun _ ha => absurd ha haccept, fun _ => rfl, .inr (.inl rfl)⟩

/-- The flag after an `ACCEPT`: kept by a complete frame, and set from 0 with label `FrameComplete` alone. -/
theorem execAccept_complete {data : Byte} {s t : State} (h : execAccept data s = .next t) :
    (s.complete = true → t.complete = true) ∧ (s.complete = false → t.complete = true → t.event = .frameComplete) := by
  rcases execAccept_cases h with ⟨hc, rfl⟩ | ⟨hc, -, -, rfl⟩ | ⟨hc, -, -, rfl⟩ | ⟨hc, -, -, -, hcheck⟩
  · exact ⟨fun _ => hc, by simp [hc]⟩
  · exact ⟨by simp [hc], nofun⟩
  · exact ⟨by simp [hc], nofun⟩
  · rcases completionCheck_cases hcheck with ⟨-, rfl⟩ | ⟨-, -, -, rfl⟩ | ⟨-, -, -, rfl⟩
    · exact ⟨by simp [hc], by simp [hc]⟩
    · exact ⟨by simp [hc], fun _ _ => rfl⟩
    · exact ⟨by simp [hc], nofun⟩

/-- Settles O46: no command but `ACCEPT` sets the flag, and of the commands that clear it `POLL` finds it clear. -/
theorem completeIsEnteredAndLeft : Obligations.CompleteIsEnteredAndLeft := by
  intro i s t h
  have hlabel (he : t.event = .frameComplete) : s.complete = false ∧ t.complete = true :=
    ⟨(last_byte_of_event h (.inr he)).2.1, complete_of_event h (.inr he)⟩
  by_cases haccept : ∃ data, i = .accept data
  · obtain ⟨data, rfl⟩ := haccept
    obtain ⟨hkept, hset⟩ := execAccept_complete h
    exact ⟨fun hc hleft => absurd (hleft.symm.trans (hkept hc)) (by decide), fun hc ht => ⟨hset hc ht, data, rfl⟩, hlabel⟩
  · rcases exec_other_cases (not_exists.1 haccept) h with ⟨-, -, rfl⟩ | ⟨hwhich, e, r, rfl⟩
    · exact ⟨fun hc hleft => absurd (hleft.symm.trans hc) (by decide),
        fun hc hset => absurd (hset.symm.trans hc) (by decide), hlabel⟩
    · refine ⟨fun hc _ => ?_, nofun, hlabel⟩
      rcases hwhich with hi | ⟨-, hpoll⟩ | ⟨hi, -⟩
      · exact .inl hi
      · exact absurd (hc.symm.trans hpoll) (by decide)
      · exact .inr hi

/-- Settles O47: an `ACCEPT` that leaves a frame in progress stamps its time (R69), and another command that leaves one does
nothing. -/
theorem timestampOfLastAccept : Obligations.TimestampOfLastAccept := by
  intro i s t h hp
  constructor
  · rintro ⟨data, rfl⟩
    have hc : s.complete = false :=
      Bool.eq_false_iff.2 fun hc => absurd (hp.1.symm.trans ((execAccept_complete h).1 hc)) (by decide)
    exact (acceptRecordsTime data s t hc h).1 hp
  · intro hne
    rcases exec_other_cases hne h with ⟨-, -, rfl⟩ | ⟨-, e, r, rfl⟩
    · exact ⟨rfl, hp⟩
    · exact absurd hp.2 (by simp)

end Sys2Proof.Machine
end

section
/-! The commands against the transition tables (44_state_machine.md R103 to R105; 41_poll.md R84). -/

namespace Sys2Proof.Machine

open Sys2Proof.Safety

/-- A report does not change the named state. -/
@[simp] theorem phase_finish (e : Event) (r : Option Frame) (s : State) : phase (finish e r s) = phase s := rfl

/-- An error event leaves the idle state (R121). -/
@[simp] theorem phase_raise (e : Event) (s : State) : phase (raise e s) = .idle := phase_coreReset s

/-- Without a frame in progress whose time is held the watchdog does not fire (R84). -/
theorem watchdogFires_of_idle_or_complete {s : State} (hi : Invariant s)
    (h : phase s = .idle ∨ phase s = .complete ∨ s.ts = 0#32) : ¬ watchdogFires s = true := by
  rw [watchdogFires_iff]
  rintro ⟨hc, hts, -⟩
  rcases h with hp | hp | h0
  · obtain ⟨-, hcursor⟩ := (phase_idle_iff s).1 hp
    obtain ⟨-, -, -, h0⟩ := hi.i8 (BitVec.eq_of_toNat_eq hcursor)
    exact hts h0
  · exact absurd (hc.symm.trans ((phase_complete_iff s).1 hp)) (by decide)
  · exact hts h0

/-- Settles O19: the watchdog does not fire in the three cases, and with a frame in progress and its time held it does as the
difference says. -/
theorem pollLeavesIdleAndComplete : Obligations.PollLeavesIdleAndComplete := by
  intro s hi
  refine ⟨fun h => execPoll_of_not_fires (watchdogFires_of_idle_or_complete hi h), fun hp hts => ?_⟩
  have hfires : watchdogFires s = true ↔ 1000 < (elapsed s).toNat :=
    (watchdogFires_iff s).trans ⟨fun h => h.2.2, fun h => ⟨hp.1, hts, h⟩⟩
  rw [← hfires]
  by_cases hw : watchdogFires s = true
  · exact ⟨_, execPoll_of_fires hw, by simp [hw], fun _ => phase_raise _ s, fun h => absurd rfl h⟩
  · exact ⟨_, execPoll_of_not_fires hw, by simp [hw], by simp, fun _ => rfl⟩

/-- `POLL` follows R104. -/
theorem execPoll_follows_table {s : State} (hi : Invariant s) :
    ∃ t, execPoll s = .next t ∧ (phase t, t.event) = pollRow s := by
  rw [pollRow]
  split
  · rename_i hp
    exact ⟨_, execPoll_of_not_fires (watchdogFires_of_idle_or_complete hi (.inl hp)), by rw [phase_finish, hp]; rfl⟩
  · rename_i hp
    exact ⟨_, execPoll_of_not_fires (watchdogFires_of_idle_or_complete hi (.inr (.inl hp))), by rw [phase_finish, hp]; rfl⟩
  · rename_i hcomplete
    have hc : s.complete = false := Bool.eq_false_iff.2 fun h => hcomplete ((phase_complete_iff s).2 h)
    split
    · rename_i hw
      exact ⟨_, execPoll_of_fires ((watchdogFires_iff s).2 ⟨hc, hw⟩), by rw [phase_raise]; rfl⟩
    · rename_i hw
      exact ⟨_, execPoll_of_not_fires fun h => hw ((watchdogFires_iff s).1 h).2, rfl⟩

/-- `DRAIN` follows R105. -/
theorem execDrain_follows_table {s : State} (hi : Invariant s) :
    ∃ t, execDrain s = .next t ∧ (phase t, t.event) = drainRow s := by
  rw [drainRow]
  split
  · rename_i hp
    have hc := (phase_complete_iff s).1 hp
    have hle := payloadLen_le_of_complete hi hc
    exact ⟨_, execDrain_of_complete hc ((payloadInBuf_iff s).2 (by omega)), by rw [phase_finish, phase_coreReset]; rfl⟩
  · rename_i hp
    exact ⟨_, execDrain_of_not_complete (Bool.eq_false_iff.2 fun h => hp ((phase_complete_iff s).2 h)), rfl⟩

/-- The cursor one further, where it does not wrap. -/
theorem cursor_succ_toNat {s : State} (h : s.cursor.toNat < 15) : (s.cursor + 1#4).toNat = s.cursor.toNat + 1 := by
  bv_omega

/-- `ACCEPT` at a framing position, `p` being the named state one position further (R103). -/
theorem execAccept_framing_row {data : Byte} {s : State} {p : Phase} (hi : Invariant s) (hc : s.complete = false)
    (h2 : s.cursor.toNat < 2)
    (hp : ∀ t : State, t.complete = false → t.cursor.toNat = s.cursor.toNat + 1 → phase t = p) :
    ∃ t, execAccept data s = .next t ∧
      (phase t, t.event) = if data = 0xAA#8 then (p, .noEvent) else (.idle, .framingError) := by
  split
  next hd =>
    have hnext := (acceptFramingByte data s hc h2 (totalLen_of_cursor_le hi (by omega)).1).1 hd
    exact ⟨_, hnext, congrArg (·, Event.noEvent) (hp _ hc (cursor_succ_toNat (by omega)))⟩
  next hd => exact ⟨_, execAccept_of_bad_framing hc h2 hd, by rw [phase_raise]; rfl⟩

/-- `ACCEPT` of the length byte (R103). -/
theorem execAccept_length_row {data : Byte} {s : State} (hc : s.complete = false) (h2 : s.cursor.toNat = 2) :
    ∃ t, execAccept data s = .next t ∧
      (phase t, t.event) =
        if data.toNat ≤ Config.maxPayload then (.lengthKnown, .noEvent) else (.idle, .capacityViolation) := by
  obtain ⟨hkept, hrejected, -⟩ := acceptLengthByte data s hc (BitVec.eq_of_toNat_eq h2)
  rw [Config.maxPayload_eq]
  split
  next hd =>
    obtain ⟨total, -, hnext⟩ := hkept (by omega)
    exact ⟨_, hnext, congrArg (·, Event.noEvent) ((phase_lengthKnown_iff _).2 ⟨hc, rfl⟩)⟩
  next hd => exact ⟨_, hrejected (by omega), rfl⟩

/-- `ACCEPT` from position 4 on: a payload byte goes on accumulating, the trailer decides (R103). -/
theorem execAccept_body_row {data : Byte} {s : State} (hi : Invariant s) (hc : s.complete = false) (h4 : 4 ≤ s.cursor.toNat) :
    ∃ t, execAccept data s = .next t ∧
      (phase t, t.event) = if s.cursor.toNat + 1 ≠ s.totalLen.toNat then (.accumulatingPayload, .noEvent)
        else if data = csum s s.payloadLen.toNat then (.complete, .frameComplete) else (.idle, .checksumFailure) := by
  have hlt := cursor_lt_of_not_complete hi hc
  split
  next hmore =>
    refine ⟨_, (acceptPayloadByte data s hc h4 hlt).2 hmore, congrArg (·, Event.noEvent) ?_⟩
    exact (phase_accumulatingPayload_iff _).2 ⟨hc, (cursor_succ_toNat hlt).symm ▸ Nat.succ_le_succ h4⟩
  next hlast =>
    obtain ⟨t, ht⟩ := exec_goes_on hi (.accept data)
    have hevent := event_of_last_byte hi hc (not_not.1 hlast) ht
    refine ⟨t, ht, ?_⟩
    split at hevent
    next hsum => rw [if_pos hsum, hevent, (phase_complete_iff t).2 (complete_of_event ht (.inr hevent))]
    next hsum =>
      obtain ⟨hcursor, -, -, hcomplete, -⟩ := registers_of_resets ht (by rw [hevent]; rfl)
      rw [if_neg hsum, hevent, (phase_idle_iff t).2 ⟨hcomplete, by rw [hcursor]; rfl⟩]

/-- `ACCEPT` follows R103. -/
theorem execAccept_follows_table {s : State} (hi : Invariant s) (data : Byte) :
    ∃ t, execAccept data s = .next t ∧ (phase t, t.event) = acceptRow data s := by
  rw [acceptRow]
  split
  case h_1 hp =>
    obtain ⟨hc, hcursor⟩ := (phase_idle_iff s).1 hp
    exact execAccept_framing_row hi hc (by omega) fun t ht h => (phase_framing1_iff t).2 ⟨ht, by omega⟩
  case h_2 hp =>
    obtain ⟨hc, hcursor⟩ := (phase_framing1_iff s).1 hp
    exact execAccept_framing_row hi hc (by omega) fun t ht h => (phase_framing2_iff t).2 ⟨ht, by omega⟩
  case h_3 hp =>
    obtain ⟨hc, hcursor⟩ := (phase_framing2_iff s).1 hp
    exact execAccept_length_row hc hcursor
  case h_4 hp =>
    obtain ⟨hc, hcursor⟩ := (phase_lengthKnown_iff s).1 hp
    exact ⟨_, acceptDestinationByte data s hc (BitVec.eq_of_toNat_eq hcursor) hi.i1,
      congrArg (·, Event.noEvent) ((phase_destinationKnown_iff _).2 ⟨hc, rfl⟩)⟩
  case h_5 hp =>
    obtain ⟨hc, hcursor⟩ := (phase_destinationKnown_iff s).1 hp
    obtain ⟨htotal, -⟩ := totalLen_of_three_le hi hc (by omega)
    obtain ⟨t, ht, hrow⟩ := execAccept_body_row (data := data) hi hc (by omega)
    refine ⟨t, ht, hrow.trans ?_⟩
    by_cases hp : s.payloadLen.toNat = 0
    · rw [if_neg (by omega : ¬ s.cursor.toNat + 1 ≠ s.totalLen.toNat), if_neg (by omega : ¬ 1 ≤ s.payloadLen.toNat), hp,
        csum_zero]
    · rw [if_pos (by omega), if_pos (by omega)]
  case h_6 hp =>
    obtain ⟨hc, hcursor⟩ := (phase_accumulatingPayload_iff s).1 hp
    obtain ⟨-, hreach⟩ := totalLen_of_three_le hi hc (by omega)
    obtain ⟨t, ht, hrow⟩ := execAccept_body_row (data := data) hi hc (by omega)
    refine ⟨t, ht, hrow.trans (if_congr ?_ rfl rfl)⟩
    omega
  case h_7 hp =>
    have hc := (phase_complete_iff s).1 hp
    exact ⟨_, execAccept_of_complete hc, by rw [phase_finish, hp]; rfl⟩

/-- Settles O44: `ACCEPT`, `POLL` and `DRAIN` by their tables, `RESET` to the idle state, and the others leave the state as
named. -/
theorem execFollowsTransitionTable : Obligations.ExecFollowsTransitionTable := by
  intro i s hi
  cases i with
  | accept data => exact execAccept_follows_table hi data
  | poll => exact execPoll_follows_table hi
  | drain => exact execDrain_follows_table hi
  | reset => exact ⟨_, rfl, congrArg (·, Event.noEvent) (phase_coreReset s)⟩
  | nop | reserved101 | reserved110 | reserved111 => exact ⟨_, rfl, rfl⟩

end Sys2Proof.Machine
end

section
/-! What the outputs show, and the frame held while `ready` (43_outputs_and_checksum.md R93 to R100; 40_accept.md R75). -/

namespace Sys2Proof.Machine

open Sys2Proof.Safety

/-- Every payload cell that `out_csum` reads exists and holds a value (R98). -/
theorem payloadWritten_iff (s : State) (n : Nat) :
    payloadWritten s n = true ↔ ∀ i, i < n → 4 + i < 15 ∧ (s.buf.read (4 + i)).isSome = true := by
  induction n with
  | zero => simp [payloadWritten]
  | succ n ih =>
    rw [Nat.forall_lt_succ_right, ← ih]
    simp [payloadWritten, payloadIndex, and_assoc]

/-- With every payload cell held `out_csum` shows the checksum (R98). -/
theorem outCsum_of_held {s : State} (look : Nat)
    (h : ∀ i, i < s.payloadLen.toNat → 4 + i < 15 ∧ (s.buf.read (4 + i)).isSome = true) :
    outCsum look s = csum s s.payloadLen.toNat :=
  if_pos ((payloadWritten_iff s _).2 h)

/-- Settles O36: each output reads its register or cells, a free value standing in only where none is held. -/
theorem outputsShowRegisters : Obligations.OutputsShowRegisters :=
  fun look _ => ⟨rfl, rfl, fun _ => outDest_of_some look, fun _ _ => bufData_of_some look, outCsum_of_held look,
    outCsum_of_payloadLen_zero look⟩

/-- While a frame is complete `out_csum` shows its checksum, at every look. -/
theorem outCsum_of_complete {s : State} (hi : Invariant s) (hc : s.complete = true) (look : Nat) :
    outCsum look s = csum s s.payloadLen.toNat := by
  have hle := payloadLen_le_of_complete hi hc
  exact outCsum_of_held look fun i h => ⟨by omega, payload_isSome_of_complete hi hc h⟩

/-- By I7 and I2 the trailer of a complete frame is its checksum. -/
theorem read_trailer_of_complete {s : State} (hi : Invariant s) (hc : s.complete = true) :
    s.buf.read (4 + s.payloadLen.toNat) = some (csum s s.payloadLen.toNat) := hi.i7 hc

/-- A command other than `RESET` and `DRAIN` does nothing to a complete frame. -/
theorem exec_of_complete {i : Instr} {s t : State} (hc : s.complete = true) (hreset : i ≠ .reset) (hdrain : i ≠ .drain)
    (h : exec i s = .next t) : ∃ e, t = finish e none s := by
  by_cases haccept : ∃ data, i = .accept data
  · obtain ⟨data, rfl⟩ := haccept
    exact ⟨_, (Host.Outcome.next.inj ((execAccept_of_complete hc).symm.trans h)).symm⟩
  · rcases exec_other_cases (not_exists.1 haccept) h with ⟨-, -, ht⟩ | ⟨hi | ⟨-, hpoll⟩ | ⟨hi, -⟩, -⟩
    · exact ⟨_, ht⟩
    · exact absurd hi hreset
    · exact absurd (hc.symm.trans hpoll) (by decide)
    · exact absurd hi hdrain

/-- The outputs that describe a complete frame are read off the block alone: at any two looks they show the same. -/
theorem outputs_of_toBlock_eq {s t : State} (hi : Invariant s) (hc : s.complete = true) (h : t.toBlock = s.toBlock)
    (look look' : Nat) :
    outDest look' t = outDest look s ∧ outCsum look' t = outCsum look s ∧
      ∀ idx : Cur, idx.toNat ≤ 4 + s.payloadLen.toNat → bufData look' idx t = bufData look idx s := by
  have ht : Invariant t := invariant_of_toBlock_eq hi h
  have hct : t.complete = true := (congrArg Block.complete h).trans hc
  have hbuf : t.buf = s.buf := congrArg Block.buf h
  have hlen : t.payloadLen = s.payloadLen := congrArg Block.payloadLen h
  have hdest : t.dest = s.dest := congrArg Block.dest h
  have hcursor := cursor_of_complete hi hc
  have hle := payloadLen_le_of_complete hi hc
  refine ⟨?dest, ?csum, fun idx hidx => ?cell⟩
  case dest =>
    obtain ⟨d, hd⟩ := Option.isSome_iff_exists.1 (dest_isSome_of_complete hi hc)
    rw [outDest_of_some look hd, outDest_of_some look' (hdest.trans hd)]
  case csum =>
    rw [outCsum_of_complete hi hc, outCsum_of_complete ht hct, hlen]
    exact csum_congr_of_held (fun i => payload_isSome_of_complete hi hc) fun i _ => by rw [hbuf]
  case cell =>
    obtain ⟨v, hv⟩ := Option.isSome_iff_exists.1 (hi.i6.1 idx.toNat (by omega))
    rw [bufData_of_some look (by omega) hv, bufData_of_some look' (by omega) (hbuf ▸ hv)]

/-- Settles O37: such a step leaves the block as it was. -/
theorem readyWindowIsStable : Obligations.ReadyWindowIsStable := by
  intro s t look look' hi hc hrst hreset hdrain h
  rw [step_of_not_rst hrst] at h
  obtain ⟨e, rfl⟩ := exec_of_complete (s := sample s) hc hreset hdrain h
  obtain ⟨hdest, hcsum, hdata⟩ := outputs_of_toBlock_eq (t := finish e none (sample s)) hi hc rfl look look'
  exact ⟨hc, hdest, rfl, hcsum, hdata⟩

/-- A frame's bytes are well formed, up to the capacity (R49 to R53). -/
theorem wellFormedFrame_frameBytes (dest : Byte) {p : List Byte} (h : p.length ≤ 10) :
    wellFormedFrame (frameBytes dest p) = true := by
  have hlen : (BitVec.ofNat 8 p.length).toNat = p.length := by
    rw [BitVec.toNat_ofNat]
    omega
  simp only [wellFormedFrame, frameBytes, hlen, List.drop_left, List.take_left, List.length_append, List.length_singleton,
    beq_self_eq_true, Config.maxPayload_eq, h, decide_true, Bool.and_self]

theorem length_frameBytes (dest : Byte) (p : List Byte) : (frameBytes dest p).length = p.length + 5 := by
  simp [frameBytes]

/-- The payload of a frame stands from byte `HDR` on (R49). -/
theorem frameBytes_payload (dest : Byte) {p : List Byte} {i : Nat} (h : i < p.length) :
    (frameBytes dest p)[4 + i]? = p[i]? := by
  have hskip : (frameBytes dest p)[i + 4]? = (p ++ [checksumOf p])[i]? := rfl
  rw [Nat.add_comm, hskip, List.getElem?_append_left h]

/-- The trailer of a frame is its last byte (R49). -/
theorem frameBytes_trailer (dest : Byte) (p : List Byte) : (frameBytes dest p)[4 + p.length]? = some (checksumOf p) := by
  have hskip : (frameBytes dest p)[p.length + 4]? = (p ++ [checksumOf p])[p.length]? := rfl
  rw [Nat.add_comm, hskip, List.getElem?_concat_length]

/-- The checksum over the cells is that of the payload they hold, as a list (R97, R52). -/
theorem checksumOf_payloadCells (s : State) : checksumOf (payloadCells s) = csum s s.payloadLen.toNat := by
  apply BitVec.eq_of_toNat_eq
  rw [toNat_checksumOf, toNat_csum, payloadCells, List.map_map]
  rfl

/-- The cells of a complete frame are the bytes of the frame with the destination and the payload held (I6, I7). -/
theorem frameBytes_getElem?_of_complete {s : State} (hi : Invariant s) (hc : s.complete = true) {i : Nat}
    (h : i < s.payloadLen.toNat + 5) : (frameBytes (readDest s) (payloadCells s))[i]? = s.buf.read i := by
  have hcursor := cursor_of_complete hi hc
  obtain ⟨-, hfirst, hsecond, hlen, hdest⟩ := hi.i6
  match i with
  | 0 => exact (hfirst (by omega)).symm
  | 1 => exact (hsecond (by omega)).symm
  | 2 =>
    rw [hlen (by omega)]
    simp [frameBytes]
  | 3 =>
    obtain ⟨hsome, hread⟩ := hdest (by omega)
    obtain ⟨d, hd⟩ := Option.isSome_iff_exists.1 hsome
    rw [← hread, hd, ← readDest_of_some hd]
    rfl
  | j + 4 =>
    rw [Nat.add_comm j 4]
    by_cases hj : j < s.payloadLen.toNat
    · rw [frameBytes_payload _ (by rwa [length_payloadCells]), payloadCells_getElem?_of_complete hi hc hj]
    · have hlast : j = s.payloadLen.toNat := by omega
      rw [hlast, read_trailer_of_complete hi hc, ← checksumOf_payloadCells, ← length_payloadCells s, frameBytes_trailer]

/-- Settles O38: the cells are the bytes of the frame of the destination and payload held, and its trailer the checksum. -/
theorem completeFrameIsWellFormed : Obligations.CompleteFrameIsWellFormed := by
  intro s hi hc
  have hle := payloadLen_le_of_complete hi hc
  have htotal : s.totalLen.toNat = s.payloadLen.toNat + 5 := hi.i2.1 (hi.i4 hc).1
  refine ⟨frameBytes (readDest s) (payloadCells s), by rw [length_frameBytes, length_payloadCells, htotal],
    fun i h => frameBytes_getElem?_of_complete hi hc (by omega), wellFormedFrame_frameBytes _ (by rwa [length_payloadCells]),
    fun look => ?_⟩
  rw [outCsum_of_complete hi hc, read_trailer_of_complete hi hc]

end Sys2Proof.Machine
end

section
/-! One payload cell changed changes the checksum (40_accept.md R74 (e)). -/

namespace Sys2Proof.Machine

open Sys2Proof.Safety

/-- With one payload cell changed the wraparound sum changes by that cell's difference. -/
theorem sumCells_of_one_changed {s t : State} {k n : Nat} (hk : k < n)
    (h : ∀ i, i ≠ k → readCell t (payloadIndex i) = readCell s (payloadIndex i)) :
    sumCells t n + readCell s (payloadIndex k) = sumCells s n + readCell t (payloadIndex k) := by
  induction n with
  | zero => omega
  | succ n ih =>
    rw [sumCells, sumCells]
    by_cases hkn : k = n
    · subst hkn
      rw [sumCells_congr fun i hi => h i (Nat.ne_of_lt hi)]
      ac_rfl
    · rw [h n (Ne.symm hkn), add_right_comm, ih (by omega), add_right_comm]

/-- So that it is not the same checksum (R74 (e)). -/
theorem csum_ne_of_one_changed {s t : State} {k n : Nat} (hk : k < n)
    (h : ∀ i, i ≠ k → readCell t (payloadIndex i) = readCell s (payloadIndex i))
    (hne : readCell t (payloadIndex k) ≠ readCell s (payloadIndex k)) : csum t n ≠ csum s n := by
  intro hcsum
  have hsum : sumCells t n = sumCells s n := by rw [← not_csum, hcsum, not_csum]
  have hchange := sumCells_of_one_changed hk h
  rw [hsum] at hchange
  exact hne ((BitVec.add_right_inj _).1 hchange).symm

/-- A payload cell written with another byte than it held. -/
theorem csum_writeBuf_payload_ne {s : State} {k n : Nat} {v w : Byte} (hk : k < n) (hv : s.buf.read (4 + k) = some v)
    (hne : w ≠ v) : csum (writeBuf (4 + k) w s) n ≠ csum s n := by
  refine csum_ne_of_one_changed hk (fun i hik => ?others) ?changed
  case others =>
    have hread : (writeBuf (4 + k) w s).buf.read (4 + i) = s.buf.read (4 + i) := Memory.read_write_ne _ _ (by omega)
    exact congrArg (Option.getD · _) hread
  case changed =>
    have hnew : readCell (writeBuf (4 + k) w s) (payloadIndex k) = w := readCell_of_some (Memory.read_write_same _ _ _)
    have hold : readCell s (payloadIndex k) = v := readCell_of_some hv
    rwa [hnew, hold]

/-- A bit flipped changes the byte. -/
theorem xor_bit_ne {v : Byte} {j : Nat} (hj : j < 8) : v ^^^ (1#8 <<< j) ≠ v := by
  intro h
  have hbit := congrArg (fun b : Byte => b.getLsbD j) h
  simp [hj] at hbit

/-- While a frame is in progress any payload byte held may be another: no part of the invariant reads it. -/
theorem invariant_writeBuf_payload {s : State} (hi : Invariant s) (hc : s.complete = false) {i : Nat} (v : Byte) (h4 : 4 ≤ i)
    (hlt : i < s.cursor.toNat) : Invariant (writeBuf i v s) := by
  have h15 := cursor_lt_of_not_complete hi hc
  obtain ⟨hcells, hfirst, hsecond, hlen, hdest⟩ := hi.i6
  have hheader (k : Nat) (hk : k < 4) : (s.buf.write i v).read k = s.buf.read k := Memory.read_write_ne _ v (by omega)
  refine ⟨Memory.wf_write v hi.mem (Nat.lt_trans hlt h15), hi.i1, hi.i2, hi.i3, hi.i4, hi.i5,
    ⟨fun k hk => ?cells, fun h => ?_, fun h => ?_, fun h => ?_, fun h => ?_⟩,
    fun h => absurd (hc.symm.trans h) (by decide), hi.i8⟩
  case cells =>
    rw [writeBuf_buf, Memory.read_write]
    split
    · rfl
    · exact hcells k hk
  · exact (hheader 0 (by decide)).trans (hfirst h)
  · exact (hheader 1 (by decide)).trans (hsecond h)
  · exact (hheader 2 (by decide)).trans (hlen h)
  · exact ⟨(hdest h).1, (hdest h).2.trans (hheader 3 (by decide)).symm⟩

/-- Settles O34: the altered frame meets the invariant too, and its checksum is not the byte that equals the unaltered one's. -/
theorem singleBitFlipDiscards : Obligations.SingleBitFlipDiscards := by
  intro c v k j s t hi hc hlast h hevent hk hv hj
  have htrailer : 4 + s.payloadLen.toNat = s.cursor.toNat := trailerIndex_eq_cursor hi.i2 hlast
  have hflipped : Invariant (writeBuf (4 + k) (v ^^^ (1#8 <<< j)) s) :=
    invariant_writeBuf_payload hi hc _ (by omega) (by omega)
  obtain ⟨u, hu⟩ := exec_goes_on hflipped (.accept c)
  have hmatch : c = csum s s.payloadLen.toNat := by
    by_contra hne
    rw [event_of_last_byte hi hc hlast h, if_neg hne] at hevent
    cases hevent
  have hdiscard : u.event = .checksumFailure := by
    rw [event_of_last_byte hflipped hc hlast hu, if_neg]
    rw [hmatch]
    exact (csum_writeBuf_payload_ne hk hv (xor_bit_ne hj)).symm
  obtain ⟨hcursor, -, -, hcomplete, -⟩ := registers_of_resets hu (by rw [hdiscard]; rfl)
  exact ⟨u, hu, hdiscard, (phase_idle_iff u).2 ⟨hcomplete, congrArg BitVec.toNat hcursor⟩⟩

end Sys2Proof.Machine
end

section
/-! States that no command sequence can tell apart (70_reset_and_hazards.md R132). -/

namespace Sys2Proof.Machine

open Sys2Proof.Safety

/-- Both outcomes go on, to alike states with the same report and the same `ready`. -/
def AlikeOutcomes (o p : Result) : Prop :=
  ∃ s t, o = .next s ∧ p = .next t ∧ alike s t ∧ s.event = t.event ∧ s.result = t.result ∧ ready s = ready t

section
variable {s t : State}

/-- The reset primitive forgets all that two states can differ in but the inputs to come. -/
theorem alike_coreReset (hpending : s.pending = t.pending) : alike (coreReset s) (coreReset t) :=
  ⟨rfl, rfl, rfl, rfl, rfl, fun k hk => absurd hk (Nat.not_lt_zero k), fun h => absurd h (by simp), hpending⟩

/-- By I8 two idle states differ in what the reset primitive leaves alone. -/
theorem alike_of_idle (hs : Invariant s) (ht : Invariant t) (his : isIdle s) (hit : isIdle t) (hpending : s.pending = t.pending) :
    alike s t := by
  rw [← coreReset_of_cursor_zero hs.i8 his.2, ← coreReset_of_cursor_zero ht.i8 hit.2]
  exact alike_coreReset hpending

/-- Alike states that end a command with one report. -/
theorem alikeOutcomes_finish (e : Event) (r : Option Frame) (h : alike s t) :
    AlikeOutcomes (.next (finish e r s)) (.next (finish e r t)) := by
  have ⟨_, _, _, hcomplete, _⟩ := h
  exact ⟨_, _, rfl, rfl, h, rfl, rfl, hcomplete⟩

/-- States with the same inputs to come that end a command with one report and the reset primitive. -/
theorem alikeOutcomes_finish_coreReset (e : Event) (r : Option Frame) (hpending : s.pending = t.pending) :
    AlikeOutcomes (.next (finish e r (coreReset s))) (.next (finish e r (coreReset t))) :=
  alikeOutcomes_finish e r (alike_coreReset hpending)

theorem alike_markComplete (h : alike s t) : alike (markComplete s) (markComplete t) := by
  obtain ⟨hcursor, htotal, hlen, -, -, hcells, hdest, hpending⟩ := h
  exact ⟨hcursor, htotal, hlen, rfl, rfl, hcells, hdest, hpending⟩

/-- A cell below `cursor` that holds a value is read alike. -/
theorem readCell_of_alike (hcells : I6 s) (h : alike s t) {k : Nat} (hk : k < s.cursor.toNat) : readCell t k = readCell s k := by
  obtain ⟨-, -, -, -, -, hread, -, -⟩ := h
  exact readCell_congr (hcells.1 k hk) (hread k hk).symm

/-- Alike states answer the completion check alike: it reads cells below `cursor` alone. -/
theorem completionCheck_alike (ha : Accumulated s) (h : alike s t) : AlikeOutcomes (completionCheck s) (completionCheck t) := by
  have ⟨hcursor, htotal, hlen, _, _, _, _, hpending⟩ := h
  have hfilled : frameFilled t = frameFilled s := by rw [frameFilled, frameFilled, hcursor, htotal]
  cases hf : frameFilled s with
  | false =>
    rw [completionCheck_of_not_filled hf, completionCheck_of_not_filled (hfilled.trans hf)]
    exact alikeOutcomes_finish _ _ h
  | true =>
    obtain ⟨hend, hlast⟩ := ha.of_filled hf
    have htrailer : trailerIndex t = trailerIndex s := by rw [trailerIndex, trailerIndex, hlen]
    have hcsum : csum t s.payloadLen.toNat = csum s s.payloadLen.toNat :=
      csum_congr fun i hi => readCell_of_alike ha.cells h (by rw [payloadIndex, Config.hdr_eq]; omega)
    have hmatches : checksumMatches t = checksumMatches s := by
      rw [checksumMatches, checksumMatches, htrailer, ← hlen, hcsum, readCell_of_alike ha.cells h (by omega)]
    rw [completionCheck_of_filled hf (ha.trailerIndex_lt hf),
      completionCheck_of_filled (hfilled.trans hf) (htrailer ▸ ha.trailerIndex_lt hf), hmatches]
    split
    · exact alikeOutcomes_finish _ _ (alike_markComplete h)
    · exact alikeOutcomes_finish_coreReset _ _ hpending

/-- Storing one byte in alike states, which agree on `dest` where the byte is the destination or comes after it. -/
theorem alike_stored {data : Byte} (hlt : s.cursor.toNat < 15) (h : alike s t)
    (hdest : 3 ≤ s.cursor.toNat → s.dest = t.dest) :
    alike (stored data s) (stored data t) := by
  obtain ⟨hcursor, htotal, hlen, hcomplete, hts, hcells, -, hpending⟩ := h
  refine ⟨by rw [stored_cursor, stored_cursor, hcursor], htotal, hlen, hcomplete, hts, fun k hk => ?_, fun h4 => ?_, hpending⟩
  · rw [stored_cursor_toNat hlt] at hk
    rw [stored_buf, stored_buf, ← hcursor, Memory.read_write, Memory.read_write]
    split
    · rfl
    · exact hcells k (by omega)
  · rw [stored_cursor_toNat hlt] at h4
    exact hdest (by omega)

/-- The arm of an `ACCEPT` at one time in alike states. -/
theorem alike_armState (data : Byte) (hnow : s.now = t.now) (h : alike s t) :
    alike (armState data s) (armState data t) ∧ (3 ≤ s.cursor.toNat → (armState data s).dest = (armState data t).dest) := by
  obtain ⟨hcursor, htotal, hlen, hcomplete, -, hcells, hdest, hpending⟩ := h
  by_cases h2 : s.cursor.toNat = 2
  · rw [armState_two h2, armState_two (hcursor ▸ h2)]
    exact ⟨⟨hcursor, rfl, rfl, hcomplete, hnow, hcells, hdest, hpending⟩, by omega⟩
  by_cases h3 : s.cursor.toNat = 3
  · rw [armState_three h3, armState_three (hcursor ▸ h3)]
    exact ⟨⟨hcursor, htotal, hlen, hcomplete, hnow, hcells, fun _ => rfl, hpending⟩, fun _ => rfl⟩
  · rw [armState_other h2 h3, armState_other (hcursor ▸ h2) (hcursor ▸ h3)]
    exact ⟨⟨hcursor, htotal, hlen, hcomplete, hnow, hcells, hdest, hpending⟩, fun h => hdest (by omega)⟩

/-- `ACCEPT` of one byte at one time in alike states. -/
theorem execAccept_alike (data : Byte) (hs : Invariant s) (hnow : s.now = t.now) (h : alike s t) :
    AlikeOutcomes (execAccept data s) (execAccept data t) := by
  have ⟨hcursor, _, _, hcomplete, _, _, _, hpending⟩ := h
  rcases accept_cases data s with hc | ⟨hc, h2, hd⟩ | ⟨hc, h2, hd⟩ | ⟨hc, hlt, hframing, hlength⟩ | ⟨hc, h15⟩
  · rw [execAccept_of_complete hc, execAccept_of_complete (hcomplete ▸ hc)]
    exact alikeOutcomes_finish _ _ h
  · rw [execAccept_of_bad_framing hc h2 hd, execAccept_of_bad_framing (hcomplete ▸ hc) (hcursor ▸ h2) hd]
    exact alikeOutcomes_finish_coreReset _ _ hpending
  · rw [execAccept_of_excess_length hc h2 hd, execAccept_of_excess_length (hcomplete ▸ hc) (hcursor ▸ h2) hd]
    exact alikeOutcomes_finish_coreReset _ _ hpending
  · rw [execAccept_of_stores hc hlt hframing hlength,
      execAccept_of_stores (hcomplete ▸ hc) (hcursor ▸ hlt) (hcursor ▸ hframing) (hcursor ▸ hlength)]
    obtain ⟨harm, hdest⟩ := alike_armState data hnow h
    exact completionCheck_alike (accumulated_stored hs hc hframing hlength)
      (alike_stored (by rwa [armState_cursor]) harm (by rwa [armState_cursor]))
  · exact absurd (cursor_lt_of_not_complete hs hc) (Nat.not_lt.2 h15)

/-- `POLL` at one time in alike states: the watchdog reads `complete` and `ts`. -/
theorem execPoll_alike (hnow : s.now = t.now) (h : alike s t) : AlikeOutcomes (execPoll s) (execPoll t) := by
  have ⟨_, _, _, hcomplete, hts, _, _, hpending⟩ := h
  have hfires : watchdogFires t = watchdogFires s := by
    rw [watchdogFires, watchdogFires, elapsed, elapsed, hcomplete, hts, hnow]
  rw [execPoll, execPoll, hfires]
  split
  · exact alikeOutcomes_finish_coreReset _ _ hpending
  · exact alikeOutcomes_finish _ _ h

/-- Alike complete states hold one frame. -/
theorem drainFrame_of_alike (hs : Invariant s) (hc : s.complete = true) (h : alike s t) : drainFrame t = drainFrame s := by
  have ⟨_, _, hlen, _, _, _, hdest, _⟩ := h
  have hcursor := cursor_of_complete hs hc
  obtain ⟨d, hd⟩ := Option.isSome_iff_exists.1 (dest_isSome_of_complete hs hc)
  have hread : readDest t = readDest s := by
    rw [readDest_of_some hd, readDest_of_some ((hdest (by omega)).symm.trans hd)]
  have hpayload : payloadCells t = payloadCells s := by
    rw [payloadCells, payloadCells, ← hlen]
    refine List.map_congr_left fun i hi => readCell_of_alike hs.i6 h ?_
    have hlt := List.mem_range.1 hi
    rw [payloadIndex, Config.hdr_eq]
    omega
  rw [drainFrame, drainFrame, hread, hpayload, hlen]

/-- `DRAIN` in alike states. -/
theorem execDrain_alike (hs : Invariant s) (h : alike s t) : AlikeOutcomes (execDrain s) (execDrain t) := by
  have ⟨_, _, hlen, hcomplete, _, _, _, hpending⟩ := h
  cases hc : s.complete with
  | false =>
    rw [execDrain_of_not_complete hc, execDrain_of_not_complete (hcomplete ▸ hc)]
    exact alikeOutcomes_finish _ _ h
  | true =>
    have hle := payloadLen_le_of_complete hs hc
    rw [execDrain_of_complete hc ((payloadInBuf_iff s).2 (by omega)),
      execDrain_of_complete (hcomplete ▸ hc) ((payloadInBuf_iff t).2 (hlen ▸ by omega)), drainFrame_of_alike hs hc h]
    exact alikeOutcomes_finish_coreReset _ _ hpending

/-- Every command in alike states, at one time if it reads the time. -/
theorem exec_alike (i : Instr) (hs : Invariant s) (hnow : readsNow i = true → s.now = t.now) (h : alike s t) :
    AlikeOutcomes (exec i s) (exec i t) := by
  cases i with
  | accept data => exact execAccept_alike data hs (hnow rfl) h
  | poll => exact execPoll_alike (hnow rfl) h
  | drain => exact execDrain_alike hs h
  | reset =>
    obtain ⟨-, -, -, -, -, -, -, hpending⟩ := h
    exact alikeOutcomes_finish_coreReset _ _ hpending
  | nop | reserved101 | reserved110 | reserved111 => exact alikeOutcomes_finish _ _ h

/-- With the same inputs to come two states sample the same command, and, if it reads the time, the same time: with nothing
pending the command is `NOP`. -/
theorem nextInput_of_pending_eq (hpending : s.pending = t.pending) :
    (nextInput s).rst = (nextInput t).rst ∧ (nextInput s).cmd = (nextInput t).cmd ∧
      (readsNow (decodeWord (nextInput s).cmd) = true → (nextInput s).now = (nextInput t).now) := by
  cases hp : s.pending with
  | nil =>
    have hnop : readsNow (decodeWord (idleInput s).cmd) = false := congrArg readsNow (decodeWord_encode .nop)
    rw [nextInput_nil hp, nextInput_nil (hpending ▸ hp)]
    exact ⟨rfl, rfl, fun h => absurd (hnop.symm.trans h) (by decide)⟩
  | cons inp rest =>
    rw [nextInput_cons hp, nextInput_cons (hpending ▸ hp)]
    exact ⟨rfl, rfl, fun _ => rfl⟩

/-- Sampling keeps states alike. -/
theorem alike_sample (h : alike s t) : alike (sample s) (sample t) := by
  obtain ⟨hcursor, htotal, hlen, hcomplete, hts, hcells, hdest, hpending⟩ := h
  exact ⟨hcursor, htotal, hlen, hcomplete, hts, hcells, hdest, congrArg List.tail hpending⟩

/-- States alike to one that meets the invariant step as it does. -/
theorem step_alike (hs : Invariant s) (h : alike s t) : AlikeOutcomes (step s) (step t) := by
  have ⟨_, _, _, _, _, _, _, hpending⟩ := h
  obtain ⟨hrst, hcmd, hnow⟩ := nextInput_of_pending_eq hpending
  cases hr : (nextInput s).rst with
  | true =>
    rw [step_of_rst hr, step_of_rst (hrst ▸ hr)]
    exact alikeOutcomes_finish_coreReset (s := powerOn (sample s)) (t := powerOn (sample t)) .noEvent none
      (congrArg List.tail hpending)
  | false =>
    rw [step_of_not_rst hr, step_of_not_rst (hrst ▸ hr), ← hcmd]
    exact exec_alike _ (invariant_sample hs) hnow (alike_sample h)

end

/-- Settles O49: every command keeps states alike, and idle states with the same inputs to come are. -/
theorem alikeStatesBehaveAlike : Obligations.AlikeStatesBehaveAlike :=
  ⟨fun _ _ hs _ => step_alike hs, fun _ _ => alike_of_idle⟩

end Sys2Proof.Machine
end

section
/-! The clock: the times to come and the one held, across a step, with the wrap of the counter and without
(70_reset_and_hazards.md R135, R142; 41_poll.md R83). -/

namespace Sys2Proof.Machine

open Sys2Proof.Safety

/-- A step whose command reads the time takes that time off those to come, and any other leaves them. -/
theorem times_pending (s : State) :
    times s.pending = if (nextInput s).rst = false ∧ readsNow (decodeWord (nextInput s).cmd) = true
      then (nextInput s).now :: times s.pending.tail else times s.pending.tail := by
  cases hp : s.pending with
  | nil =>
    have hnop : readsNow (decodeWord (idleInput s).cmd) = false := congrArg readsNow (decodeWord_encode .nop)
    rw [nextInput_nil hp, hnop, if_neg (by simp)]
    rfl
  | cons inp rest => simp [nextInput_cons hp, times_cons]

/-- What a step does to the times to come and to `ts`: it keeps the times, and `ts` stays or is 0; or it takes the next time off,
which may be the new `ts`. -/
theorem step_clock_cases {s t : State} (h : step s = .next t) :
    (times s.pending = times t.pending ∧ (t.ts = s.ts ∨ t.ts = 0#32)) ∨
      ∃ now, times s.pending = now :: times t.pending ∧ (t.ts = s.ts ∨ t.ts = 0#32 ∨ t.ts = now) := by
  obtain ⟨hpending, hts⟩ := step_pending_ts h
  have htimes := times_pending s
  rw [← hpending] at htimes
  split at htimes
  next => exact .inr ⟨_, htimes, hts.imp_right (Or.imp_right fun hnow => hnow.2.2)⟩
  next hreads => exact .inl ⟨htimes, hts.imp_right (Or.resolve_right · fun hnow => hreads ⟨hnow.1, hnow.2.1⟩)⟩

/-- The time that a step reads is first among those to come. -/
theorem times_of_reads {s : State} {inp : StepInput} {rest : List StepInput} (hpending : s.pending = inp :: rest)
    (hrst : inp.rst = false) (hreads : readsNow (decodeWord inp.cmd) = true) : times s.pending = inp.now :: times rest := by
  rw [hpending, times_cons, hrst, hreads]
  rfl

/-- The narrower premise after a step (log entry 10). -/
theorem monotoneClock_step {s t : State} (hm : MonotoneClock s) (h : step s = .next t) : MonotoneClock t := by
  obtain ⟨hsorted, hbelow⟩ := hm
  rcases step_clock_cases h with ⟨htimes, hts⟩ | ⟨now, htimes, hts⟩
  · rw [htimes] at hsorted hbelow
    refine ⟨hsorted, fun x hx => ?_⟩
    rcases hts with hts | hts
    · exact hts ▸ hbelow x hx
    · simp [hts]
  · rw [htimes, List.pairwise_cons] at hsorted
    obtain ⟨hnow, hsorted⟩ := hsorted
    refine ⟨hsorted, fun x hx => ?_⟩
    rcases hts with hts | hts | hts
    · exact hts ▸ hbelow x (htimes ▸ List.mem_cons_of_mem now hx)
    · simp [hts]
    · exact hts ▸ hnow x hx

/-- Settles O48: the time taken off is at or below those that remain, and at or above the one held. -/
theorem monotoneClockIsKept : Obligations.MonotoneClockIsKept := by
  refine ⟨fun s t => monotoneClock_step, fun s inp rest hm hpending hrst hreads => ?_⟩
  have hnow : (sample s).now = inp.now := by rw [sample_now, nextInput_cons hpending]
  have hle : s.ts.toNat ≤ inp.now.toNat :=
    hm.2 _ (times_of_reads hpending hrst hreads ▸ List.mem_cons_self)
  rw [toNat_elapsed_of_le (s := sample s) (by rwa [hnow]), hnow]
  rfl

/-- P2 after a step: the count of a time taken off may become the one behind `ts`. -/
theorem premiseP2_step {clock : List Nat} {since : Nat} {s t : State} (hp : PremiseP2 clock since s) (h : step s = .next t) :
    ∃ (clock' : List Nat) (since' : Nat), clock' <:+ clock ∧ since ≤ since' ∧ PremiseP2 clock' since' t := by
  obtain ⟨hnows, hsorted, hbelow, hstamp⟩ := hp
  rcases step_clock_cases h with ⟨htimes, hts⟩ | ⟨now, htimes, hts⟩
  · refine ⟨clock, since, List.suffix_refl clock, Nat.le_refl since, htimes ▸ hnows, hsorted, hbelow, ?_⟩
    rcases hts with hts | hts
    · rwa [hts]
    · exact .inl hts
  · rw [htimes] at hnows
    obtain ⟨c, rest, rfl, hc, hrest⟩ := List.map_eq_cons_iff.1 hnows.symm
    obtain ⟨hfirst, hsorted⟩ := List.pairwise_cons.1 hsorted
    have hkept (hts : t.ts = 0#32 ∨ t.ts = BitVec.ofNat 32 since) : PremiseP2 rest since t :=
      ⟨hrest.symm, hsorted, fun x hx => hbelow x (List.mem_cons_of_mem c hx), hts⟩
    rcases hts with hts | hts | hts
    · exact ⟨rest, since, List.suffix_cons c rest, Nat.le_refl since, hkept (hts ▸ hstamp)⟩
    · exact ⟨rest, since, List.suffix_cons c rest, Nat.le_refl since, hkept (.inl hts)⟩
    · exact ⟨rest, c, List.suffix_cons c rest, hbelow c List.mem_cons_self, hrest.symm, hsorted, hfirst,
        .inr (hts.trans hc.symm)⟩

/-- Without a wrap the times are their own counts. -/
theorem premiseP2_of_monotoneClock {s : State} (hm : MonotoneClock s) :
    PremiseP2 ((times s.pending).map BitVec.toNat) s.ts.toNat s where
  nows := by simp [Function.comp_def]
  nonDecreasing := List.pairwise_map.2 hm.1
  notBefore := by
    intro c hc
    obtain ⟨x, hx, rfl⟩ := List.mem_map.1 hc
    exact hm.2 x hx
  stamp := .inr (by simp)

/-- Settles O53: a step keeps the counts or takes the first off, and the times of a trace without a wrap are counts
themselves. -/
theorem premiseP2IsKept : Obligations.PremiseP2IsKept :=
  ⟨fun _ _ _ _ => premiseP2_step, fun _ => premiseP2_of_monotoneClock⟩

/-- The difference of two counts modulo `2^32` is the modular difference of their times (R83). -/
theorem toNat_ofNat_sub_ofNat {since c : Nat} (h : since ≤ c) :
    (BitVec.ofNat 32 c - BitVec.ofNat 32 since).toNat = (c - since) % 2 ^ 32 := by
  rw [BitVec.toNat_sub, BitVec.toNat_ofNat, BitVec.toNat_ofNat]
  omega

/-- Settles O54: the modular difference of the two times is the true one as long as that is below `2^32`, and the watchdog
compares it. -/
theorem pollMeasuresTrueTime : Obligations.PollMeasuresTrueTime := by
  intro c since clock s inp rest hp hpending hrst hpoll hc hts
  have hreads : readsNow (decodeWord inp.cmd) = true := by rw [hpoll]; rfl
  have hnow : (sample s).now = BitVec.ofNat 32 c := by
    have hnows := hp.nows
    rw [times_of_reads hpending hrst hreads, List.map_cons] at hnows
    rw [sample_now, nextInput_cons hpending]
    exact (List.cons.inj hnows).1
  have helapsed : (elapsed (sample s)).toNat = (c - since) % 2 ^ 32 := by
    rw [elapsed, hnow, sample_ts, hp.stamp.resolve_left hts]
    exact toNat_ofNat_sub_ofNat (hp.notBefore c List.mem_cons_self)
  refine ⟨helapsed, fun hless => ?_⟩
  have hfires : watchdogFires (sample s) = true ↔ 1000 < c - since := by
    rw [watchdogFires_iff, ← elapsed, helapsed, Nat.mod_eq_of_lt hless]
    exact ⟨fun h => h.2.2, fun h => ⟨hc, hts, h⟩⟩
  rw [step_cons hpending hrst, hpoll, exec]
  by_cases hw : watchdogFires (sample s) = true
  · exact ⟨_, execPoll_of_fires hw, fun _ => ⟨rfl, phase_raise _ _⟩, fun hle => absurd (hfires.1 hw) (Nat.not_lt.2 hle)⟩
  · exact ⟨_, execPoll_of_not_fires hw, fun hgt => absurd (hfires.2 hgt) hw, fun _ => ⟨rfl, rfl⟩⟩

end Sys2Proof.Machine
end

section
/-! Runs that feed bytes from the idle state (40_accept.md R76, R79). -/

namespace Sys2Proof.Machine

open Sys2Proof.Safety

/-- A step that samples `ACCEPT b` runs it at the time it comes with. -/
theorem step_acceptInput {s : State} {b : Byte} {time : Time} {rest : List StepInput}
    (h : s.pending = acceptInput b time :: rest) : step s = execAccept b (sample s) := by
  rw [step_cons h rfl, acceptInput, decodeWord_encode, exec]

/-- A byte that is no sentinel, in the idle state (R70, R76). -/
theorem step_garbage {s : State} {b : Byte} {time : Time} {rest : List StepInput} (hi : Invariant s) (hidle : isIdle s)
    (hb : b ≠ 0xAA#8) (h : s.pending = acceptInput b time :: rest) :
    ∃ u, step s = .next u ∧ isIdle u ∧ Invariant u ∧ u.pending = rest ∧ u.buf = s.buf ∧ u.dest = s.dest ∧
      u.event = .framingError := by
  have hstep : step s = .next (raise .framingError (stampTime (sample s))) := by
    rw [step_acceptInput h]
    exact execAccept_of_bad_framing (s := sample s) hidle.1 (by simp [hidle.2]) hb
  exact ⟨_, hstep, ⟨rfl, rfl⟩, stepKeepsInvariant s _ hi hstep, congrArg List.tail h, rfl, rfl, rfl⟩

/-- Settles O51, by induction on the garbage: each byte of it gives the idle state back. -/
theorem garbageLeavesIdle : Obligations.GarbageLeavesIdle := by
  intro garbage rest s hi hidle hbytes hpending
  induction garbage generalizing s with
  | nil => exact ⟨s, rfl, hidle, hi, hpending, rfl, rfl, fun h => absurd rfl h⟩
  | cons g gs ih =>
    obtain ⟨u, hstep, huidle, hu, hupending, hubuf, hudest, huevent⟩ :=
      step_garbage hi hidle (hbytes g List.mem_cons_self) hpending
    obtain ⟨t, hrun, htidle, ht, htpending, htbuf, htdest, htevent⟩ :=
      ih u hu huidle (fun g' hg' => hbytes g' (List.mem_cons_of_mem g hg')) hupending
    refine ⟨t, ?run, htidle, ht, htpending, htbuf.trans hubuf, htdest.trans hudest, fun _ => ?event⟩
    case run => rw [List.length_cons, run_succ, hstep, andThen_next, hrun]
    case event =>
      rcases eq_or_ne gs [] with rfl | hgs
      · cases hrun
        exact huevent
      · exact htevent hgs

/-- The cells below `cursor` hold `bytes`, of a frame not complete. -/
structure Holding (bytes : List Byte) (s : State) : Prop where
  invariant : Invariant s
  notComplete : s.complete = false
  cursor : s.cursor.toNat = bytes.length
  cells : ∀ i, i < bytes.length → s.buf.read i = bytes[i]?

/-- The idle state holds no byte. -/
theorem holding_nil_of_idle {s : State} (hi : Invariant s) (hidle : isIdle s) : Holding [] s :=
  ⟨hi, hidle.1, congrArg BitVec.toNat hidle.2, fun i h => absurd h (Nat.not_lt_zero i)⟩

/-- Where the length byte is within the capacity, and the total length is not reached once it is known, a stored byte does not
fill the frame. -/
theorem totalLen_armState_ne {data : Byte} {s : State} (hi : Invariant s)
    (hmore : 3 ≤ s.cursor.toNat → s.cursor.toNat + 1 < s.totalLen.toNat)
    (hlength : s.cursor.toNat = 2 → data.toNat + 5 ≤ 15) :
    s.cursor.toNat + 1 ≠ (armState data s).totalLen.toNat := by
  obtain ⟨-, -, -, -, -, -, -, hkeeps, hsets, -, -⟩ := armState_spec data s
  by_cases h2 : s.cursor.toNat = 2
  · have hle := hlength h2
    rw [(hsets h2).1, BitVec.toNat_ofNat]
    omega
  · rw [(hkeeps h2).1]
    by_cases h3 : 3 ≤ s.cursor.toNat
    · exact Nat.ne_of_lt (hmore h3)
    · rw [(totalLen_of_cursor_le hi (by omega)).1]
      exact Nat.succ_ne_zero _

/-- A byte that neither is rejected nor fills the frame is held after those before it, with label None. -/
theorem step_holding {bytes : List Byte} {s : State} {b : Byte} {time : Time} {rest : List StepInput} (h : Holding bytes s)
    (hpending : s.pending = acceptInput b time :: rest) (hframing : bytes.length < 2 → b = 0xAA#8)
    (hlength : bytes.length = 2 → b.toNat + 5 ≤ 15) (hmore : 3 ≤ bytes.length → bytes.length + 1 < s.totalLen.toNat) :
    ∃ u, step s = .next u ∧ Holding (bytes ++ [b]) u ∧ u.event = .noEvent ∧ u.pending = rest := by
  obtain ⟨hi, hc, hcursor, hcells⟩ := h
  have hlt := cursor_lt_of_not_complete hi hc
  have hstep : step s = .next (finish .noEvent none (stored b (armState b (sample s)))) := by
    rw [step_acceptInput hpending]
    rw [← hcursor] at hframing hlength hmore
    exact execAccept_of_stores_unfilled (s := sample s) hc hlt (fun h => (isSentinel_iff b).2 (hframing h))
      (fun h => (exceedsCapacity_false_iff b).2 (hlength h)) (totalLen_armState_ne (invariant_sample hi) hmore hlength)
  refine ⟨_, hstep, ⟨stepKeepsInvariant s _ hi hstep, by simp [hc], ?cursor, fun i hlast => ?cells⟩, rfl, ?pending⟩
  case cursor =>
    rw [finish_cursor, stored_armState_cursor_toNat (s := sample s) hlt, sample_cursor, hcursor, List.length_append,
      List.length_singleton]
  case cells =>
    rw [List.length_append, List.length_singleton] at hlast
    rw [finish_buf, stored_read, sample_cursor, sample_buf, hcursor]
    split
    next hend => rw [hend, List.getElem?_concat_length]
    next hne =>
      have hold : i < bytes.length := by omega
      rw [hcells i hold, List.getElem?_append_left hold]
  case pending => rw [finish_pending, stored_pending, armState_pending, sample_pending, hpending, List.tail_cons]

/-- Settles O52: two sentinels are held, and the third stands for a length above the capacity. -/
theorem thirdSentinelDiscards : Obligations.ThirdSentinelDiscards := by
  intro t1 t2 t3 rest s hi hidle hpending
  obtain ⟨u, hu, hholds, -, hupending⟩ :=
    step_holding (holding_nil_of_idle hi hidle) hpending (fun _ => rfl) (by simp) (by simp)
  obtain ⟨v, hv, ⟨-, hc, hcursor, -⟩, -, hvpending⟩ := step_holding hholds hupending (fun _ => rfl) (by simp) (by simp)
  have hthird : step v = .next (raise .capacityViolation (stampTime (sample v))) := by
    rw [step_acceptInput hvpending]
    exact execAccept_of_excess_length (s := sample v) hc hcursor (by decide)
  refine ⟨_, run_snoc (run_snoc (run_snoc (run_zero s) hu) hv) hthird, rfl, phase_raise _ _, ?_⟩
  exact congrArg List.tail hvpending

/-- The byte that fills the frame completes it when it is the checksum of the payload held (R74). -/
theorem execAccept_completes {data : Byte} {s : State} (hi : Invariant s) (hc : s.complete = false)
    (hlast : s.cursor.toNat + 1 = s.totalLen.toNat) (hsum : data = csum s s.payloadLen.toNat) :
    execAccept data s = .next (finish .frameComplete none (markComplete (stored data (stampTime s)))) := by
  have h4 := four_le_cursor_of_last hi.i1 hlast
  obtain ⟨t, ht⟩ := exec_goes_on hi (.accept data)
  have hevent : t.event = .frameComplete := by rw [event_of_last_byte hi hc hlast ht, if_pos hsum]
  rw [← armState_other (data := data) (s := s) (by omega) (by omega)]
  cases labelled_of_event ht hevent with
  | frameComplete => exact ht

/-- A cell holding a byte of the list fed so far. -/
theorem Holding.read_take {bytes : List Byte} {k i : Nat} {u : State} (h : Holding (bytes.take k) u) (hk : k ≤ bytes.length)
    (hi : i < k) : u.buf.read i = bytes[i]? := by
  rw [h.cells i (by rw [List.length_take]; omega), List.getElem?_take_of_lt hi]

theorem Holding.cursor_take {bytes : List Byte} {k : Nat} {u : State} (h : Holding (bytes.take k) u) (hk : k ≤ bytes.length) :
    u.cursor.toNat = k := by
  rw [h.cursor, List.length_take, Nat.min_eq_left hk]

section
variable {dest : Byte} {p : List Byte} {k : Nat} {u : State}

/-- Once its length byte is held, a frame fed has the lengths of that frame (I2, I6). -/
theorem Holding.lengths_of_frame (h : Holding ((frameBytes dest p).take k) u) (hp : p.length ≤ 10) (h3 : 3 ≤ k)
    (hk : k ≤ p.length + 5) : u.payloadLen.toNat = p.length ∧ u.totalLen.toNat = p.length + 5 := by
  have hk' : k ≤ (frameBytes dest p).length := by rwa [length_frameBytes]
  have hcursor := h.cursor_take hk'
  obtain ⟨-, -, -, hlen, -⟩ := h.invariant.i6
  have hbyte : some u.payloadLen = some (BitVec.ofNat 8 p.length) := (hlen (by omega)).symm.trans (h.read_take hk' h3)
  have hpayload : u.payloadLen.toNat = p.length := by
    rw [Option.some.inj hbyte, BitVec.toNat_ofNat]
    omega
  obtain ⟨htotal, -⟩ := totalLen_of_three_le h.invariant h.notComplete (by omega)
  exact ⟨hpayload, by rw [htotal, hpayload]⟩

/-- Once its destination is held, a frame fed has that destination (I6). -/
theorem Holding.dest_of_frame (h : Holding ((frameBytes dest p).take k) u) (h4 : 4 ≤ k) (hk : k ≤ p.length + 5) :
    u.dest = some dest := by
  have hk' : k ≤ (frameBytes dest p).length := by rwa [length_frameBytes]
  obtain ⟨-, -, -, -, hdest⟩ := h.invariant.i6
  have hcursor := h.cursor_take hk'
  exact (hdest (by omega)).2.trans (h.read_take hk' h4)

/-- Sampling touches no cell. -/
theorem Holding.sample {bytes : List Byte} (h : Holding bytes u) : Holding bytes (sample u) :=
  ⟨invariant_sample h.invariant, h.notComplete, h.cursor, h.cells⟩

/-- With all but the trailer held, the checksum over the cells is the frame's. -/
theorem Holding.csum_of_frame (h : Holding ((frameBytes dest p).take (p.length + 4)) u) (hp : p.length ≤ 10) :
    csum u u.payloadLen.toNat = checksumOf p := by
  have hk : p.length + 4 ≤ (frameBytes dest p).length := by rw [length_frameBytes]; omega
  obtain ⟨hlen, -⟩ := h.lengths_of_frame hp (by omega) (by omega)
  have hcells : payloadCells u = p := by
    refine List.ext_getElem? fun i => ?_
    by_cases hi : i < p.length
    · have hread := (h.read_take hk (i := 4 + i) (by omega)).trans (frameBytes_payload dest hi)
      rw [List.getElem?_eq_getElem hi] at hread ⊢
      exact payloadCells_getElem?_of_some (by omega) hread
    · rw [List.getElem?_eq_none (by rw [length_payloadCells]; omega), List.getElem?_eq_none (by omega)]
  rw [← checksumOf_payloadCells, hcells]

end

section
variable {dest : Byte} {p : List Byte} {time : List Time} {rest : List StepInput}

/-- The inputs of a frame from byte `k` on, that byte first. -/
theorem drop_zipWith_acceptInput {bytes : List Byte} {k : Nat} (hk : k < bytes.length) (hw : time.length = bytes.length) :
    ∃ t, (List.zipWith acceptInput bytes time).drop k ++ rest =
      acceptInput bytes[k] t :: ((List.zipWith acceptInput bytes time).drop (k + 1) ++ rest) := by
  have hlen : k < (List.zipWith acceptInput bytes time).length := by
    rw [List.length_zipWith]
    omega
  refine ⟨time[k], ?_⟩
  rw [List.drop_eq_getElem_cons hlen, List.getElem_zipWith, List.cons_append]

variable {s : State} (hi : Invariant s) (hidle : isIdle s) (hp : p.length ≤ 10) (hw : time.length = p.length + 5)
  (hpending : s.pending = List.zipWith acceptInput (frameBytes dest p) time ++ rest)

include hi hidle hp hw hpending in
/-- Feeding a frame up to its trailer, by induction on the bytes fed: each is held in its cell, with label None. -/
theorem run_frame_before_trailer {k : Nat} (hk : k < p.length + 5) :
    ∃ u, run k s = .next u ∧ Holding ((frameBytes dest p).take k) u ∧
      u.pending = (List.zipWith acceptInput (frameBytes dest p) time).drop k ++ rest ∧ (1 ≤ k → u.event = .noEvent) := by
  have hlen := length_frameBytes dest p
  induction k with
  | zero => exact ⟨s, rfl, holding_nil_of_idle hi hidle, hpending, nofun⟩
  | succ k ih =>
    obtain ⟨u, hrun, hholds, hupending, -⟩ := ih (by omega)
    have hlt : k < (frameBytes dest p).length := by omega
    obtain ⟨t, hnext⟩ := drop_zipWith_acceptInput (rest := rest) hlt (hw.trans hlen.symm)
    have hfed : ((frameBytes dest p).take k).length = k := by rw [List.length_take]; omega
    have hframing (h2 : ((frameBytes dest p).take k).length < 2) : (frameBytes dest p)[k] = 0xAA#8 := by
      have h01 : k = 0 ∨ k = 1 := by omega
      rcases h01 with rfl | rfl <;> rfl
    have hlength (h2 : ((frameBytes dest p).take k).length = 2) : (frameBytes dest p)[k].toNat + 5 ≤ 15 := by
      obtain rfl : k = 2 := hfed.symm.trans h2
      change p.length % 2 ^ 8 + 5 ≤ 15
      omega
    have hmore (h3 : 3 ≤ ((frameBytes dest p).take k).length) :
        ((frameBytes dest p).take k).length + 1 < u.totalLen.toNat := by
      rw [(hholds.lengths_of_frame hp (by omega) (by omega)).2]
      omega
    obtain ⟨v, hv, hvholds, hvevent, hvpending⟩ := step_holding hholds (hupending.trans hnext) hframing hlength hmore
    rw [List.take_append_getElem hlt] at hvholds
    exact ⟨v, run_snoc hrun hv, hvholds, hvpending, fun _ => hvevent⟩

include hi hidle hp hw hpending in
/-- The trailer completes the frame fed. -/
theorem run_frame : ∃ t, run (p.length + 5) s = .next t ∧ t.event = .frameComplete ∧ t.complete = true ∧
    t.dest = some dest ∧ t.payloadLen.toNat = p.length ∧ (∀ i, i < p.length → t.buf.read (4 + i) = p[i]?) ∧
    t.pending = rest := by
  have hlen := length_frameBytes dest p
  have hlt : p.length + 4 < (frameBytes dest p).length := by omega
  obtain ⟨u, hrun, hholds, hupending, -⟩ := run_frame_before_trailer hi hidle hp hw hpending (k := p.length + 4) (by omega)
  obtain ⟨time', hnext⟩ := drop_zipWith_acceptInput (rest := rest) hlt (hw.trans hlen.symm)
  have hlast : (frameBytes dest p)[p.length + 4] = checksumOf p := by
    have htrailer := frameBytes_trailer dest p
    rw [Nat.add_comm] at htrailer
    exact (List.getElem_eq_iff hlt).2 htrailer
  obtain ⟨hpayload, htotal⟩ := hholds.lengths_of_frame hp (by omega) (by omega)
  have hcursor := hholds.cursor_take (Nat.le_of_lt hlt)
  have hstep := step_acceptInput (hupending.trans hnext)
  rw [hlast, execAccept_completes (s := sample u) (invariant_sample hholds.invariant) hholds.notComplete
    (by rw [sample_cursor, sample_totalLen, hcursor, htotal]) (hholds.sample.csum_of_frame hp).symm] at hstep
  refine ⟨_, run_snoc hrun hstep, rfl, rfl, hholds.dest_of_frame (by omega) (by omega), hpayload, fun i hi => ?cell, ?pending⟩
  case cell =>
    have hne : 4 + i ≠ u.cursor.toNat := by omega
    calc
      (u.buf.write u.cursor.toNat (checksumOf p)).read (4 + i) = u.buf.read (4 + i) := Memory.read_write_ne _ _ hne
      _ = (frameBytes dest p)[4 + i]? := hholds.read_take (Nat.le_of_lt hlt) (by omega)
      _ = p[i]? := frameBytes_payload dest hi
  case pending =>
    have hpast : (List.zipWith acceptInput (frameBytes dest p) time).drop (p.length + 4 + 1) = [] :=
      List.drop_eq_nil_of_le (by rw [List.length_zipWith]; omega)
    change u.pending.tail = rest
    rw [hupending, hnext, List.tail_cons, hpast, List.nil_append]

end

/-- Settles O50: every byte but the trailer is held with label None, and the trailer completes the frame held. -/
theorem wholeFrameIsDelivered : Obligations.WholeFrameIsDelivered := by
  intro dest p time rest s hi hidle hp hw hpending
  refine ⟨run_frame hi hidle hp hw hpending, fun k h1 hk => ?_⟩
  obtain ⟨u, hrun, hholds, -, hevent⟩ := run_frame_before_trailer hi hidle hp hw hpending hk
  exact ⟨u, hrun, hevent h1, hholds.notComplete⟩

end Sys2Proof.Machine
end
